-- ==== Sys2Proof/Word.lean ====
section
/-! DEFINITION. Word.lean: the bit-vector types of the SK620's bytes, numbers and index sets. -/

namespace Sys2Proof

/-- One byte, on the line or on the local port (file 11). -/
abbrev Byte := BitVec 8

/-- A sixteen-bit number: the millisecond clock, tallies, leads and check values. -/
abbrev Word16 := BitVec 16

/-- A station number as a key or a lead carries it, six bits; 1..62 name stations (R1, R115). -/
abbrev Station := BitVec 6

/-- A point index, 0..63 (R1). -/
abbrev Index := BitVec 6

/-- A set of point indexes; bit `i` is index `i`, as in its wire form (file 11, Index set). -/
abbrev IndexSet := BitVec 64

end Sys2Proof
end

