-- ==== Sys2Proof/Syntax.lean ====
section
/-! DEFINITION. Syntax.lean: the commands of the SK620, one constructor for each row of
spec/opcode_table.json, with the operands the rules give it (the table gives no row any bits). -/

namespace Sys2Proof

/-- The level of the line at the sample point of one cell (R135). -/
inductive Level where
  | low | high
  deriving DecidableEq, Repr

/-- The commands. The line's commands carry `cells`, the levels sampled in the cells that belong to them, in order
(R135; log 6). A local-port command carries `ldi`, bits that LDI gives at rising edges of LCLK in the open transaction,
most significant bit of each byte first: the code byte, the argument bytes that its comment names, and as many more as
are clocked while the reply is returned. Several commands may carry the bits of one transaction in turn (R180 to R183,
R195; log 11). -/
inductive Instr where
  /-- TRANSACTION_OPEN (R180): the fall of LSEL. -/
  | transactionOpen
  /-- TRANSACTION_CLOSE (R183): the rise of LSEL. -/
  | transactionClose
  /-- BAD_COMMAND (R184): a code byte that names no command. -/
  | badCommand (ldi : List Bool)
  /-- SET_IDENTITY (R164): station number, epoch. -/
  | setIdentity (ldi : List Bool)
  /-- SET_TIMING (R165): rate, publish, multiple and recall-wait codes. -/
  | setTiming (ldi : List Bool)
  /-- DECLARE_POINT (R27): index, size code, urgent flag, initial value. -/
  | declarePoint (ldi : List Bool)
  /-- SET_WINDOW (R96): window, enabled, base key (2), mask key (2), mode. -/
  | setWindow (ldi : List Bool)
  /-- COMMIT (R166). -/
  | commit (ldi : List Bool)
  /-- READ_STATUS (R188). -/
  | readStatus (ldi : List Bool)
  /-- READ_POINT (R21): station, index. -/
  | readPoint (ldi : List Bool)
  /-- TAKE_NOTICE (R108). -/
  | takeNotice (ldi : List Bool)
  /-- READ_PEER (R70): station. -/
  | readPeer (ldi : List Bool)
  /-- READ_TALLIES (R130). -/
  | readTallies (ldi : List Bool)
  /-- CLEAR_FAULT (R178): the flag set. -/
  | clearFault (ldi : List Bool)
  /-- WRITE_POINT (R29): index, value. -/
  | writePoint (ldi : List Bool)
  /-- RECALL_PEER (R88): station. -/
  | recallPeer (ldi : List Bool)
  /-- WITHDRAW (R170). -/
  | withdraw (ldi : List Bool)
  /-- REJOIN (R174). -/
  | rejoin (ldi : List Bool)
  /-- RESTART (R175). -/
  | restart (ldi : List Bool)
  /-- COLD_RESET (R176): power-on, or a low on RESET, up to its end. -/
  | coldReset
  /-- NOTICE_REMOVAL (R109): the last TAKE_NOTICE response byte has been clocked out. -/
  | noticeRemoval
  /-- LINE_BUSY (R137): a falling edge, as it leaves the input filter, on a free line; with the cells sampled from
  there up to the next command (none where none are named). -/
  | lineBusy (cells : List Level := [])
  /-- LINE_IDLE (R137): the line has been high for tIDLE, after the cells sampled since the last command. -/
  | lineIdle (cells : List Level := [])
  /-- LINE_BREAK (R142): the 16th cell of one continuous low, after the cells sampled since the last command. -/
  | lineBreak (cells : List Level := [])
  /-- STUCK (R144): the 128th cell of the same low. -/
  | stuck
  /-- STUCK_END (R144): a high of tIDLE after STUCK. -/
  | stuckEnd
  /-- EARLY_EDGE (R143): a falling edge within the interval after a frame's last check bit. -/
  | earlyEdge
  /-- FRAME_END (R119): the last check bit of the frame under assembly; with the cells sampled since the last command,
  the last check bit's among them. -/
  | frameEnd (cells : List Level)
  /-- TRANSMIT_START (R151): the moment at which a start may be taken. -/
  | transmitStart
  /-- COMPLETED (R154): the release of the last check cell of the own frame. -/
  | completed
  /-- LOST (R139): a 1 sent and a 0 sampled in the arbitration field. -/
  | lost
  /-- BIT_ERROR (R140): any other mismatch of a bit sent and a bit sampled; with the mismatched cell and the cells
  sampled from there up to the next command. -/
  | bitError (cells : List Level := [])
  /-- FAILED (R156): the release of tBRK. -/
  | failed
  /-- PUBLISH_TIMER_EXPIRY (R31). -/
  | publishTimerExpiry
  /-- BEACON_TIMER_EXPIRY (R44). -/
  | beaconTimerExpiry
  /-- SILENCE_TIMER_EXPIRY (R67, R68) of the record of `peer`. -/
  | silenceTimerExpiry (peer : Station)
  /-- RECALL_WAIT_EXPIRY (R83) of the record of `peer`. -/
  | recallWaitExpiry (peer : Station)
  /-- JOIN_EXPIRY (R168). -/
  | joinExpiry
  /-- HELLO_HOLD_EXPIRY (R169). -/
  | helloHoldExpiry
  /-- MILLISECOND_CLOCK_ADVANCE (R179). -/
  | millisecondClockAdvance
  /-- BREAK_END (R137): the rising edge that ends a BREAK that has not reached STUCK. -/
  | breakEnd
  deriving DecidableEq, Repr

end Sys2Proof
end

