-- ==== Sys2Proof/Machine/State.lean ====
section
/-! DEFINITION. Machine/State.lean: everything the manual gives one SK620 station, block by block, as plain
data, the state after a cold reset, and the reasons a step can stop. -/

namespace Sys2Proof.Machine

open Sys2Proof

/-! ### Values, keys and items -/

/-- The four sizes of a point; the size code is the place in this list (file 11, Item). -/
inductive Size where
  | one | two | four | eight
  deriving DecidableEq, Repr

/-- A key, station:index (R1). -/
structure Key where
  station : Station
  index   : Index
  deriving DecidableEq, Repr

/-- One point value as it travels (R117). -/
structure Item where
  index   : Index
  size    : Size
  version : Byte
  value   : List Byte
  deriving DecidableEq, Repr

/-! ### Timers -/

/-- A timer with its remaining time in CLKIN periods (R31, R44, R82, R167, R169). -/
inductive Timer where
  | stopped
  | running (left : Nat)
  | held (left : Nat)
  deriving DecidableEq, Repr

/-- The two limits a silence timer runs to (R50, R66). -/
inductive SilenceLimit where
  | silence | loss
  deriving DecidableEq, Repr

/-- A record's silence timer; it is never held (R66). -/
inductive SilenceTimer where
  | stopped
  | running (limit : SilenceLimit) (left : Nat)
  deriving DecidableEq, Repr

/-! ### Station control (file 09) -/

/-- Why the station listens (R162). -/
inductive Cause where
  | command | lineTrouble | duplicate
  deriving DecidableEq, Repr

/-- The station state; LISTENING carries its cause, every other state has cause none (R162). -/
inductive StationState where
  | configuring
  | joining
  | inService
  | listening (cause : Cause)
  deriving DecidableEq, Repr

/-- Line rates 31.25, 62.5, 125 and 250 kbit/s, codes 0..3 (R132). -/
inductive Rate where
  | k31 | k62 | k125 | k250
  deriving DecidableEq, Repr

/-- Publish intervals 2, 5, 10, 20 and 50 ms, codes 0..4 (R165). -/
inductive PublishInterval where
  | ms2 | ms5 | ms10 | ms20 | ms50
  deriving DecidableEq, Repr

/-- Beacon multiples 4, 8 and 16, codes 0..2 (R165). -/
inductive BeaconMultiple where
  | x4 | x8 | x16
  deriving DecidableEq, Repr

/-- Recall waits 10, 20, 40 and 80 ms, codes 0..3 (R165). -/
inductive RecallWait where
  | ms10 | ms20 | ms40 | ms80
  deriving DecidableEq, Repr

/-- The four values of SET_TIMING (R165). -/
structure Timing where
  rate       : Rate
  interval   : PublishInterval
  multiple   : BeaconMultiple
  recallWait : RecallWait
  deriving DecidableEq, Repr

/-- The five fault flags (R177). -/
structure FaultFlags where
  duplicate    : Bool
  lineStuck    : Bool
  lineTrouble  : Bool
  tableFull    : Bool
  peerOverflow : Bool
  deriving DecidableEq, Repr

/-- What station control owns (file 09, opening table), less the HELLO want, which stands with the arbiter's
wants. -/
structure Control where
  state            : StationState
  helloDone        : Bool
  withdrawPending  : Bool
  lineTroubleCount : Nat
  station          : Option Station
  epoch            : Byte
  timing           : Timing
  faults           : FaultFlags
  clock            : Word16
  joinTimer        : Timer
  helloHold        : Timer
  deriving DecidableEq, Repr

/-! ### Line interface (file 07) -/

/-- A frame as it stands on the line: the 16 lead bits, the body bytes and the 16 check bits (R114). -/
structure WireFrame where
  lead  : Word16
  body  : List Byte
  check : Word16
  deriving DecidableEq, Repr

/-- The line condition (R137). -/
inductive LineCondition where
  | idle | busy | lowBreak | stuck
  deriving DecidableEq, Repr

/-- The transmit drive: idle, sending the cells of an own frame (R133), or driving tBRK (R140). `unheard` is a sending
drive under which the line has become free: the driver brings no low, and the frame's 1s sample equal (R137, R139 to
R141; log 9). -/
inductive Drive where
  | idle
  | sending (frame : WireFrame)
  | unheard (frame : WireFrame)
  | breaking
  deriving DecidableEq, Repr

/-- The interval after a frame's last check bit, and whether its first early edge has been reported (R143). -/
inductive EarlyInterval where
  | none | waiting | seen
  deriving DecidableEq, Repr

/-- The line interface's state between commands. -/
structure LineInterface where
  condition : LineCondition
  drive     : Drive
  early     : EarlyInterval
  deriving DecidableEq, Repr

/-! ### Frame unit (file 06) -/

/-- Whose cells a frame under assembly has been received from, as far as the station's own drive shows it (log 17):
`driven`, the own drive has begun every cell; `ended`, that too, and with the last of them it has stopped sending;
`foreign`, some cell was begun by another station. -/
inductive Origin where
  | driven | ended | foreign
  deriving DecidableEq, Repr

/-- A frame under assembly: the bits of its lead, body and check value received so far, in the order received, its
own-frame mark, and the origin of its cells (R119, R124; log 17). -/
structure Assembly where
  bits   : List Bool
  own    : Bool
  origin : Origin
  deriving DecidableEq, Repr

/-- The assembly buffer and the four receive tallies (R119, R129). -/
structure FrameUnit where
  assembly : Option Assembly
  good     : Word16
  check    : Word16
  cut      : Word16
  format   : Word16
  deriving DecidableEq, Repr

/-! ### Transmit arbiter (file 08) -/

/-- The six wants (R148); a want names its owner. -/
inductive Want where
  | alarm | hello | ask | routine | beacon | resend
  deriving DecidableEq, Repr

/-- Each want raised or lowered (R148). -/
structure Wants where
  alarm   : Bool
  hello   : Bool
  ask     : Bool
  routine : Bool
  beacon  : Bool
  resend  : Bool
  deriving DecidableEq, Repr

/-- The arbiter: wants, frame in flight, consecutive failures, transmit tallies (file 08). -/
structure Arbiter where
  wants    : Wants
  inFlight : Option Want
  failures : Nat
  arbLost  : Word16
  txFail   : Word16
  deriving DecidableEq, Repr

/-! ### Point table (file 01) -/

/-- A declaration taken in CONFIGURING (R27). -/
structure Declaration where
  index   : Index
  size    : Size
  urgent  : Bool
  initial : List Byte
  deriving DecidableEq, Repr

/-- A published value with its version; absent together, present together (R4). -/
structure Published where
  value   : List Byte
  version : Byte
  deriving DecidableEq, Repr

/-- An own entry (R4). -/
structure OwnEntry where
  index     : Index
  size      : Size
  urgent    : Bool
  current   : List Byte
  published : Option Published
  deriving DecidableEq, Repr

/-- The three states of a mirrored entry (R7). -/
inductive MirrorState where
  | valid | suspect | stale
  deriving DecidableEq, Repr

/-- A mirrored entry (R6). -/
structure MirrorEntry where
  key          : Key
  size         : Size
  state        : MirrorState
  value        : List Byte
  version      : Byte
  time         : Word16
  ageSaturated : Bool
  deriving DecidableEq, Repr

/-- The Point Table with its declarations; each list in rising order of its index or key (log 16). -/
structure PointTable where
  declarations : List Declaration
  own          : List OwnEntry
  mirrored     : List MirrorEntry
  deriving DecidableEq, Repr

/-! ### Publication unit (files 02, 04) -/

/-- The round state: closed, or open with the ROUTINE UPDATE frames completed in it (R32). -/
inductive Round where
  | closed
  | opened (carried : Nat)
  deriving DecidableEq, Repr

/-- The own UPDATE in flight: its urgency, its sequence number, and per index snapshot and carried version (R37). -/
structure UpdateFlight where
  alarm    : Bool
  sequence : Byte
  items    : List Item
  deriving DecidableEq, Repr

/-- What the publication unit owns (file 02), less its wants. -/
structure Publication where
  publishSet   : List Index
  flight       : Option UpdateFlight
  sequence     : Byte
  published    : IndexSet
  replay       : IndexSet
  resendFlight : List Index
  publishTimer : Timer
  beaconTimer  : Timer
  round        : Round
  deriving DecidableEq, Repr

/-! ### Peer unit (files 03, 04) -/

/-- The four states of a peer record (R52). -/
inductive PeerState where
  | live | recovering | silent | lost
  deriving DecidableEq, Repr

/-- A peer record (R50, R72). `none` is "unknown". The beacon period is in 2 ms units. -/
structure PeerRecord where
  station      : Station
  state        : PeerState
  epoch        : Byte
  expected     : Option Byte
  published    : Option IndexSet
  period       : Option Byte
  interest     : IndexSet
  need         : IndexSet
  covered      : IndexSet
  askDue       : Bool
  beaconWanted : Bool
  attempts     : Nat
  silence      : SilenceTimer
  recallWait   : Timer
  deriving DecidableEq, Repr

/-- The ASK in flight marker (R72). -/
structure AskFlight where
  target : Station
  asked  : IndexSet
  owned  : Bool
  deriving DecidableEq, Repr

/-- The Peer Table in rising order of station number (log 16), the loss list, oldest first (R53), and the ASK
in flight marker. -/
structure PeerUnit where
  records  : List PeerRecord
  lossList : List Station
  asking   : Option AskFlight
  deriving DecidableEq, Repr

/-! ### Notice unit (file 05) -/

/-- Notify modes (R96). -/
inductive NotifyMode where
  | quiet | onChange | onEvery
  deriving DecidableEq, Repr

/-- An interest window (R96). -/
structure Window where
  enabled : Bool
  base    : Key
  mask    : Key
  mode    : NotifyMode
  deriving DecidableEq, Repr

/-- The nine kinds of notice whose subject is a peer's station number (R102). -/
inductive PeerNotice where
  | new | restarted | gap | silent | lost | back | overflow | recallDone | recallFailed
  deriving DecidableEq, Repr

/-- The kind of a notice with the fields its kind carries (R101, R102). -/
inductive NoticeBody where
  | updated (key : Key) (version : Byte)
  | refreshed (key : Key) (version : Byte)
  | clash (key : Key) (version : Byte)
  | tableFull (key : Key) (version : Byte)
  | peer (kind : PeerNotice) (station : Station)
  | state (own : Station) (entered : StationState)
  | lostNotices (count : Byte)
  deriving DecidableEq, Repr

/-- A notice record (R101). -/
structure NoticeRecord where
  body : NoticeBody
  time : Word16
  deriving DecidableEq, Repr

/-- The marks of the head record: none, being taken, or being taken and changed (R108, R110). -/
inductive TakeMark where
  | none | taking | changed
  deriving DecidableEq, Repr

/-- What the notice unit owns (file 05). The ATTN pin is computed (R113). -/
structure NoticeUnit where
  windows   : Vector Window 8
  queue     : List NoticeRecord
  overflow  : Bool
  lostCount : Byte
  mark      : TakeMark
  deriving DecidableEq, Repr

/-! ### Local port (file 10) -/

/-- The phases of a transaction (R180). -/
inductive Phase where
  | closed | code | arguments | waiting | result | response | trailing
  deriving DecidableEq, Repr

/-- The result codes (R184). -/
inductive ResultCode where
  | ok | empty | notFound | badArgument | badState | badCommand | badConfig
  deriving DecidableEq, Repr

/-- The result code and the response bytes, fixed when the command is taken (R182). -/
structure Reply where
  result : ResultCode
  bytes  : List Byte
  deriving DecidableEq, Repr

/-- The state of the transaction under way (file 10, opening table); `bits` holds what has been sampled from LDI of a
byte that is not complete, `ldo` the level of the LDO pin, none at high impedance (R180). -/
structure Port where
  phase  : Phase
  code   : Option Byte
  args   : List Byte
  needed : Option Nat
  reply  : Option Reply
  sent   : Nat
  bits   : List Bool
  ldo    : Option Bool
  deriving DecidableEq, Repr

/-! ### The station -/

/-- One SK620 station, with the queue of commands that wait. -/
structure State where
  control     : Control
  line        : LineInterface
  frame       : FrameUnit
  arbiter     : Arbiter
  points      : PointTable
  publication : Publication
  peers       : PeerUnit
  notices     : NoticeUnit
  port        : Port
  freeCount   : Nat
  pending     : List Instr
  deriving DecidableEq, Repr

/-- A fault that would stop the machine. The manual gives the SK620 none: there is no constructor, so no step
ends in a fault. -/
inductive Fault where
  deriving DecidableEq, Repr

/-- A refusal to give a command a meaning. No meaning of this model refuses. -/
inductive Refusal where
  /-- Raised by an arm of `exec` that has no meaning yet; safe, since a claim about a next state then says
  nothing. No arm of this model raises it. -/
  | notModelled (mnemonic : String)
  deriving DecidableEq, Repr

/-! ### Cold reset -/

/-- Every want lowered (R148). -/
def Wants.lowered : Wants := ⟨false, false, false, false, false, false⟩

/-- Every fault flag clear (R176). -/
def FaultFlags.clear : FaultFlags := ⟨false, false, false, false, false⟩

/-- A window as cold reset leaves it (R96). -/
def Window.default : Window := ⟨false, ⟨0, 0⟩, ⟨0, 0⟩, .quiet⟩

/-- Station control after cold reset (R176). -/
def Control.reset : Control where
  state := .configuring
  helloDone := false
  withdrawPending := false
  lineTroubleCount := 0
  station := none
  epoch := 0
  timing := ⟨.k125, .ms10, .x8, .ms20⟩
  faults := .clear
  clock := 0
  joinTimer := .stopped
  helloHold := .stopped

/-- The line interface after cold reset: BUSY, nothing driven (R137, R176). -/
def LineInterface.reset : LineInterface := ⟨.busy, .idle, .none⟩

/-- The frame unit after cold reset (R131). -/
def FrameUnit.reset : FrameUnit := ⟨none, 0, 0, 0, 0⟩

/-- The arbiter after cold reset (R161). -/
def Arbiter.reset : Arbiter := ⟨.lowered, none, 0, 0, 0⟩

/-- The point table after cold reset (R8). -/
def PointTable.reset : PointTable := ⟨[], [], []⟩

/-- The publication unit after cold reset (R48). -/
def Publication.reset : Publication where
  publishSet := []
  flight := none
  sequence := 0
  published := 0
  replay := 0
  resendFlight := []
  publishTimer := .stopped
  beaconTimer := .stopped
  round := .closed

/-- The peer unit after cold reset (R49, R53, R72). -/
def PeerUnit.reset : PeerUnit := ⟨[], [], none⟩

/-- The notice unit after cold reset (R112). -/
def NoticeUnit.reset : NoticeUnit := ⟨Vector.replicate 8 Window.default, [], false, 0, .none⟩

/-- The local port after cold reset: CLOSED, LDO at high impedance (R147, R192). -/
def Port.reset : Port := ⟨.closed, none, [], none, none, 0, [], none⟩

/-- The station after a cold reset (R176), with no command waiting. -/
def State.reset : State where
  control := .reset
  line := .reset
  frame := .reset
  arbiter := .reset
  points := .reset
  publication := .reset
  peers := .reset
  notices := .reset
  port := .reset
  freeCount := 0
  pending := []

end Sys2Proof.Machine
end

