-- ==== Sys2Proof/Machine/Ops.lean ====
section
/-! DEFINITION. Machine/Ops.lean: the operations that several blocks share: index sets, tables kept in the
order of a key, timers and the station's times, and the updates of State block by block. -/

namespace Sys2Proof.Machine

open Sys2Proof

/-! ### Index sets (file 00, Index sets) -/

/-- Membership. -/
def IndexSet.mem (s : IndexSet) (i : Index) : Bool := s.getLsbD i.toNat

/-- The set of one index. -/
def IndexSet.single (i : Index) : IndexSet := BitVec.twoPow 64 i.toNat

/-- The set with an index added. -/
def IndexSet.insert (s : IndexSet) (i : Index) : IndexSet := s ||| IndexSet.single i

/-- The set with an index removed. -/
def IndexSet.erase (s : IndexSet) (i : Index) : IndexSet := s &&& ~~~(IndexSet.single i)

/-- The members of the first set that are not in the second. -/
def IndexSet.diff (s t : IndexSet) : IndexSet := s &&& ~~~t

/-- Whether every member of the first set is in the second. -/
def IndexSet.subset (s t : IndexSet) : Bool := IndexSet.diff s t == 0

/-- The set of a list's indexes. -/
def IndexSet.ofList (l : List Index) : IndexSet := l.foldl IndexSet.insert 0

/-- The indexes 0..63 in rising order. -/
def allIndexes : List Index := (List.range 64).map (BitVec.ofNat 6)

/-- The members in rising order. -/
def IndexSet.members (s : IndexSet) : List Index := allIndexes.filter (IndexSet.mem s)

/-- The set of the indexes that satisfy a test. -/
def IndexSet.ofPred (p : Index → Bool) : IndexSet := IndexSet.ofList (allIndexes.filter p)

/-- The number of members. -/
def IndexSet.size (s : IndexSet) : Nat := (IndexSet.members s).length

/-! ### Tables found by a key -/

/-- Puts a record at its key's place, in the place of a record with the same key. -/
def tableInsert {α : Type} (key : α → Nat) (x : α) : List α → List α
  | [] => [x]
  | y :: ys =>
    if key x < key y then x :: y :: ys
    else if key x = key y then x :: ys
    else y :: tableInsert key x ys

/-- The record with a key. -/
def tableFind {α : Type} (key : α → Nat) (k : Nat) (l : List α) : Option α := l.find? (fun y => key y == k)

/-- The table without the record of a key. -/
def tableErase {α : Type} (key : α → Nat) (k : Nat) (l : List α) : List α := l.filter (fun y => key y != k)

/-- The table's one form: keys strictly rising, so no key stands twice (R2, R27, R49). -/
abbrev tableSorted {α : Type} (key : α → Nat) (l : List α) : Prop := l.Pairwise (fun a b => key a < key b)

/-- A key as twelve bits, station part first (R97). -/
def Key.bits (k : Key) : BitVec 12 := k.station ++ k.index

/-- The place of a key in the order of R1: by station number, then by index. -/
def Key.rank (k : Key) : Nat := k.bits.toNat

/-- A station number that names a station on the line, 1..62 (R1, R115). -/
def namesStation (n : Station) : Bool := n != 0 && n != 63

/-! ### Sizes -/

/-- The bytes of a value (R117). -/
def Size.bytes : Size → Nat
  | .one => 1
  | .two => 2
  | .four => 4
  | .eight => 8

/-- The size that a size code names (file 11, Item). -/
def Size.ofCode (c : BitVec 2) : Size :=
  if c = 0 then .one else if c = 1 then .two else if c = 2 then .four else .eight

/-- The size code of a size. -/
def Size.code : Size → BitVec 2
  | .one => 0
  | .two => 1
  | .four => 2
  | .eight => 3

/-- The bytes an item of this size takes in a body: head, version, value (R117). -/
def Size.itemBytes (z : Size) : Nat := 2 + z.bytes

/-! ### Timers and times -/

/-- Holding a timer at entry to LISTENING keeps its remaining time; a stopped timer stays stopped (R171). -/
def Timer.hold : Timer → Timer
  | .running left => .held left
  | t => t

/-- Resuming a held timer with the time it had held (R172). -/
def Timer.resume : Timer → Timer
  | .held left => .running left
  | t => t

/-- Dropping a held time: the timer stays stopped (R174). -/
def Timer.drop : Timer → Timer
  | .held _ => .stopped
  | t => t

/-- Whether the timer runs, so that it can expire. -/
def Timer.isRunning : Timer → Bool
  | .running _ => true
  | _ => false

/-- Whether the timer has run out: its expiry is due (log 4). -/
def Timer.isDue : Timer → Bool
  | .running 0 => true
  | _ => false

/-- Whether the timer is held. -/
def Timer.isHeld : Timer → Bool
  | .held _ => true
  | _ => false

/-- One CLKIN period passes at a running timer. -/
def Timer.tick : Timer → Timer
  | .running left => .running (left - 1)
  | t => t

/-- One CLKIN period passes at a silence timer. -/
def SilenceTimer.tick : SilenceTimer → SilenceTimer
  | .running limit left => .running limit (left - 1)
  | .stopped => .stopped

/-- Whether a silence timer runs. -/
def SilenceTimer.isRunning : SilenceTimer → Bool
  | .running _ _ => true
  | .stopped => false

/-- Whether a silence timer has run out: its expiry is due (log 4). -/
def SilenceTimer.isDue : SilenceTimer → Bool
  | .running _ 0 => true
  | _ => false

/-- CLKIN periods of a number of milliseconds: CLKIN is 16 MHz (file 07, section 7.9). -/
def msPeriods (ms : Nat) : Nat := 16000 * ms

/-- CLKIN periods of one cell: 512, 256, 128 or 64 (file 07, section 7.9; R132). -/
def Rate.cellPeriods : Rate → Nat
  | .k31 => 512
  | .k62 => 256
  | .k125 => 128
  | .k250 => 64

/-- The publish interval in ms (R165). -/
def PublishInterval.ms : PublishInterval → Nat
  | .ms2 => 2
  | .ms5 => 5
  | .ms10 => 10
  | .ms20 => 20
  | .ms50 => 50

/-- The beacon multiple (R165). -/
def BeaconMultiple.times : BeaconMultiple → Nat
  | .x4 => 4
  | .x8 => 8
  | .x16 => 16

/-- The recall wait in ms (R165). -/
def RecallWait.ms : RecallWait → Nat
  | .ms10 => 10
  | .ms20 => 20
  | .ms40 => 40
  | .ms80 => 80

/-- The beacon period in ms: publish interval times beacon multiple (R44). -/
def Timing.beaconMs (t : Timing) : Nat := t.interval.ms * t.multiple.times

/-- The beacon period in 2 ms units, as HELLO and BEACON carry it (R46, R167). -/
def Timing.beaconUnits (t : Timing) : Byte := BitVec.ofNat 8 (t.beaconMs / 2)

/-- A full publish interval (R31). -/
def Timing.publishFull (t : Timing) : Timer := .running (msPeriods t.interval.ms)

/-- A full beacon period (R44). -/
def Timing.beaconFull (t : Timing) : Timer := .running (msPeriods t.beaconMs)

/-- The join window: twice the station's own beacon period (R167). -/
def Timing.joinFull (t : Timing) : Timer := .running (msPeriods (2 * t.beaconMs))

/-- The full recall wait (R82). -/
def Timing.recallFull (t : Timing) : Nat := msPeriods t.recallWait.ms

/-! ### State, block by block -/

/-- State with another station control. -/
def State.setControl (s : State) (x : Control) : State := { s with control := x }
/-- State with another line interface. -/
def State.setLine (s : State) (x : LineInterface) : State := { s with line := x }
/-- State with another frame unit. -/
def State.setFrame (s : State) (x : FrameUnit) : State := { s with frame := x }
/-- State with another transmit arbiter. -/
def State.setArbiter (s : State) (x : Arbiter) : State := { s with arbiter := x }
/-- State with another point table. -/
def State.setPoints (s : State) (x : PointTable) : State := { s with points := x }
/-- State with another publication unit. -/
def State.setPublication (s : State) (x : Publication) : State := { s with publication := x }
/-- State with another peer unit. -/
def State.setPeers (s : State) (x : PeerUnit) : State := { s with peers := x }
/-- State with another notice unit. -/
def State.setNotices (s : State) (x : NoticeUnit) : State := { s with notices := x }
/-- State with another local port. -/
def State.setPort (s : State) (x : Port) : State := { s with port := x }
/-- State with the next free value selected. -/
def State.bumpFree (s : State) : State := { s with freeCount := s.freeCount + 1 }

/-! ### What blocks ask of station control -/

/-- Whether a station number is the station's own. -/
def State.isOwn (s : State) (n : Station) : Bool := s.control.station == some n

/-- Whether the state is LISTENING, for any cause. -/
def StationState.isListening : StationState → Bool
  | .listening _ => true
  | _ => false

/-- The station's own number; read only after COMMIT, when it is set (R166). -/
def State.ownNumber (s : State) : Station := s.control.station.getD 0

/-- The recall-wait timer as it is started: running with the full recall wait, held with it in LISTENING
(R76, R80). -/
def State.recallStart (s : State) : Timer :=
  if s.control.state.isListening then .held s.control.timing.recallFull
  else .running s.control.timing.recallFull

/-! ### Wants (R148) -/

/-- Whether a want is raised. -/
def Wants.raised (w : Wants) : Want → Bool
  | .alarm => w.alarm
  | .hello => w.hello
  | .ask => w.ask
  | .routine => w.routine
  | .beacon => w.beacon
  | .resend => w.resend

/-- The wants with one raised or lowered. -/
def Wants.put (w : Wants) (k : Want) (b : Bool) : Wants :=
  match k with
  | .alarm => { w with alarm := b }
  | .hello => { w with hello := b }
  | .ask => { w with ask := b }
  | .routine => { w with routine := b }
  | .beacon => { w with beacon := b }
  | .resend => { w with resend := b }

/-- The owner raises (`true`) or lowers (`false`) a want. -/
def State.setWant (s : State) (k : Want) (b : Bool) : State :=
  s.setArbiter { s.arbiter with wants := s.arbiter.wants.put k b }

end Sys2Proof.Machine
end

