-- ==== Sys2Proof/Machine/Flags.lean ====
section
/-! DEFINITION. Machine/Flags.lean: the fault flags with what keeps each from being cleared, the ATTN pin, and
the saturating tallies and counts. -/

namespace Sys2Proof.Machine

open Sys2Proof

/-- A tally rises by one and stops at 65535 (R129, R160). -/
def Tally.rise (t : Word16) : Word16 := if t = 0xFFFF then t else t + 1

/-- The lost count rises by one and saturates at 255 (R106). -/
def lostRise (c : Byte) : Byte := if c = 0xFF then c else c + 1

/-- The fault flag byte: DUPLICATE in bit 0 up to PEER_OVERFLOW in bit 4; bits 7..5 read 0 (file 11). -/
def FaultFlags.toByte (f : FaultFlags) : Byte :=
  (0 : BitVec 3) ++ BitVec.ofBool f.peerOverflow ++ BitVec.ofBool f.tableFull ++ BitVec.ofBool f.lineTrouble ++
    BitVec.ofBool f.lineStuck ++ BitVec.ofBool f.duplicate

/-- The flag set of a fault flag byte (file 11). -/
def FaultFlags.ofByte (b : Byte) : FaultFlags where
  duplicate := b.getLsbD 0
  lineStuck := b.getLsbD 1
  lineTrouble := b.getLsbD 2
  tableFull := b.getLsbD 3
  peerOverflow := b.getLsbD 4

/-- Whether any flag is set (R113). -/
def FaultFlags.any (f : FaultFlags) : Bool :=
  f.duplicate || f.lineStuck || f.lineTrouble || f.tableFull || f.peerOverflow

/-- The keeping conditions of R177: what keeps each flag from being cleared at this moment. -/
def State.keeping (s : State) : FaultFlags where
  duplicate := s.control.state == .listening .duplicate
  lineStuck := s.line.condition == .stuck
  lineTrouble := s.control.state == .listening .lineTrouble
  tableFull := false
  peerOverflow := false

/-- The flags after CLEAR_FAULT: a named flag is cleared unless its keeping condition holds (R178). -/
def FaultFlags.cleared (f named keep : FaultFlags) : FaultFlags where
  duplicate := f.duplicate && (!named.duplicate || keep.duplicate)
  lineStuck := f.lineStuck && (!named.lineStuck || keep.lineStuck)
  lineTrouble := f.lineTrouble && (!named.lineTrouble || keep.lineTrouble)
  tableFull := f.tableFull && (!named.tableFull || keep.tableFull)
  peerOverflow := f.peerOverflow && (!named.peerOverflow || keep.peerOverflow)

/-- State with other fault flags. -/
def State.setFaults (s : State) (f : FaultFlags) : State := s.setControl { s.control with faults := f }

/-- The ATTN pin is asserted while the Notice Queue holds a record or a fault flag is set (R113). -/
def State.attention (s : State) : Bool := !s.notices.queue.isEmpty || s.control.faults.any

end Sys2Proof.Machine
end

