-- ==== Sys2Proof/Machine/Formats.lean ====
section
/-! DEFINITION. Machine/Formats.lean: frames as named fields and as bits: leads, bodies, items, index sets and
the check value (files 06 and 11), the building of own frames and the validation of received ones. -/

namespace Sys2Proof.Machine

open Sys2Proof

/-- Urgencies (R115). -/
inductive Urgency where
  | alarm | prompt | routine | bulk
  deriving DecidableEq, Repr

/-- Frame kinds (R115). -/
inductive FrameKind where
  | update | hello | ask | beacon | resend
  deriving DecidableEq, Repr

/-- What the body holds after the epoch byte, by kind (R116). -/
inductive FrameBody where
  | update (sequence : Byte) (items : List Item)
  | hello (period : Byte)
  | ask (target : Station) (beaconWanted : Bool) (believed : Byte) (asked : IndexSet)
  | beacon (next : Byte) (period : Byte) (published : IndexSet)
  | resend (items : List Item)
  deriving DecidableEq, Repr

/-- A frame as named fields. The urgency is the kind's own, but for an UPDATE, which is ALARM or ROUTINE (R116). -/
structure Frame where
  alarm  : Bool
  sender : Station
  epoch  : Byte
  body   : FrameBody
  deriving DecidableEq, Repr

/-- The kind of a body. -/
def FrameBody.kind : FrameBody → FrameKind
  | .update _ _ => .update
  | .hello _ => .hello
  | .ask _ _ _ _ => .ask
  | .beacon _ _ _ => .beacon
  | .resend _ => .resend

/-- The items of an UPDATE or RESEND; the other kinds carry none (R63). -/
def FrameBody.items : FrameBody → List Item
  | .update _ items => items
  | .resend items => items
  | .hello _ => []
  | .ask _ _ _ _ => []
  | .beacon _ _ _ => []

/-- The beacon period that a HELLO or BEACON carries, in 2 ms units (R61, R62). -/
def FrameBody.period : FrameBody → Option Byte
  | .hello p => some p
  | .beacon _ p _ => some p
  | .update _ _ => none
  | .ask _ _ _ _ => none
  | .resend _ => none

/-- Urgency codes (file 11, Lead). -/
def Urgency.code : Urgency → BitVec 2
  | .alarm => 0
  | .prompt => 1
  | .routine => 2
  | .bulk => 3

/-- Kind codes (file 11, Lead). -/
def FrameKind.code : FrameKind → BitVec 3
  | .update => 0
  | .hello => 1
  | .ask => 2
  | .beacon => 3
  | .resend => 4

/-- The kind of a kind code; 5..7 are undefined (R115). -/
def FrameKind.ofCode (c : BitVec 3) : Option FrameKind :=
  if c = 0 then some .update
  else if c = 1 then some .hello
  else if c = 2 then some .ask
  else if c = 3 then some .beacon
  else if c = 4 then some .resend
  else none

/-- The urgency a frame carries (R116). -/
def Frame.urgency (f : Frame) : Urgency :=
  match f.body.kind with
  | .update => if f.alarm then .alarm else .routine
  | .hello => .prompt
  | .ask => .prompt
  | .beacon => .routine
  | .resend => .bulk

/-! ### Bytes -/

/-- A sixteen-bit number, most significant byte first (file 00, Byte order). -/
def word16Bytes (w : Word16) : List Byte := [w.extractLsb' 8 8, w.extractLsb' 0 8]

/-- The eight bytes of an index set, index 63 in bit 7 of the first (file 11, Index set). -/
def IndexSet.toBytes (s : IndexSet) : List Byte :=
  [s.extractLsb' 56 8, s.extractLsb' 48 8, s.extractLsb' 40 8, s.extractLsb' 32 8,
   s.extractLsb' 24 8, s.extractLsb' 16 8, s.extractLsb' 8 8, s.extractLsb' 0 8]

/-- An item's head byte: index in bits 7..2, size code in bits 1..0 (file 11, Item). -/
def Item.head (i : Item) : Byte := i.index ++ i.size.code

/-- An item's bytes: head, version, value (file 11, Item). -/
def Item.toBytes (i : Item) : List Byte := i.head :: i.version :: i.value

/-- The ASK flags byte: bit 0 is beacon-wanted (file 11, Bodies). -/
def askFlags (beaconWanted : Bool) : Byte := if beaconWanted then 1 else 0

/-- The body after the epoch byte (file 11, Bodies). -/
def FrameBody.toBytes : FrameBody → List Byte
  | .update sequence items => sequence :: items.flatMap Item.toBytes
  | .hello period => [period]
  | .ask target beaconWanted believed asked =>
    target.setWidth 8 :: askFlags beaconWanted :: believed :: IndexSet.toBytes asked
  | .beacon next period published => next :: period :: IndexSet.toBytes published
  | .resend items => items.flatMap Item.toBytes

/-- The body: the sender's epoch, then what the kind holds (R116). -/
def Frame.bodyBytes (f : Frame) : List Byte := f.epoch :: f.body.toBytes

/-- The lead: urgency, kind, sender, body length (file 11, Lead). -/
def Frame.lead (f : Frame) : Word16 :=
  f.urgency.code ++ f.body.kind.code ++ f.sender ++ BitVec.ofNat 5 f.bodyBytes.length

/-! ### The check value (R194) -/

/-- One bit of the computation: compare with bit 15, shift left, then exclusive OR with 0x2F15 if they differed. -/
def checkBit (register : Word16) (bit : Bool) : Word16 :=
  let shifted := register <<< 1
  if bit != register.getLsbD 15 then shifted ^^^ 0x2F15 else shifted

/-- The bits of a number in the order they are sent, most significant first. -/
def sentBits {n : Nat} (w : BitVec n) : List Bool := (List.range n).map (fun k => w.getLsbD (n - 1 - k))

/-- The bits that the check value covers: lead, then body (R194). -/
def coveredBits (lead : Word16) (body : List Byte) : List Bool := sentBits lead ++ body.flatMap sentBits

/-- The check value over lead and body, from 0xFFFF (R194). -/
def checkValue (lead : Word16) (body : List Byte) : Word16 := (coveredBits lead body).foldl checkBit 0xFFFF

/-- An own frame as it is sent: lead, body and check value (R128). -/
def Frame.toWire (f : Frame) : WireFrame := ⟨f.lead, f.bodyBytes, checkValue f.lead f.bodyBytes⟩

/-- The bits of a frame in the order they are sent: lead, body, check value (R114, R194). -/
def wireBits (w : WireFrame) : List Bool := coveredBits w.lead w.body ++ sentBits w.check

/-! ### Bits as they are received (R119, R135) -/

/-- A sample that finds the line low is a 0, and one that finds it high is a 1 (R135). -/
def sampledBit : Level → Bool
  | .low => false
  | .high => true

/-- The number that bits spell, the first received most significant (R193). -/
def wordOfBits (n : Nat) (bits : List Bool) : BitVec n :=
  bits.foldl (fun w b => w <<< 1 ||| (BitVec.ofBool b).setWidth n) 0

/-- The bytes that bits spell, byte after byte. -/
def bytesOfBits : Nat → List Bool → List Byte
  | 0, _ => []
  | n + 1, bits => wordOfBits 8 (bits.take 8) :: bytesOfBits n (bits.drop 8)

/-! ### Reading a received frame (R193) -/

/-- The urgency bits 15..14 of a lead. -/
def leadUrgency (lead : Word16) : BitVec 2 := lead.extractLsb' 14 2
/-- The kind bits 13..11 of a lead. -/
def leadKind (lead : Word16) : BitVec 3 := lead.extractLsb' 11 3
/-- The sender bits 10..5 of a lead. -/
def leadSender (lead : Word16) : Station := lead.extractLsb' 5 6
/-- The body length bits 4..0 of a lead. -/
def leadLength (lead : Word16) : Nat := (lead.extractLsb' 0 5).toNat

/-- The lead of a frame under assembly, once its 16 bits are in (R119). -/
def leadOfBits (bits : List Bool) : Word16 := wordOfBits 16 (bits.take 16)

/-- How many bits a frame under assembly will have, once its lead is in: the lead, 8L body bits and 16 check bits
(R119). -/
def frameBits? (bits : List Bool) : Option Nat :=
  if bits.length < 16 then none else some (32 + 8 * leadLength (leadOfBits bits))

/-- The frame that the bits of the assembly buffer hold at its end: lead, body bytes and check bits (R119, R121). -/
def wireOfBits (bits : List Bool) : WireFrame :=
  let n := leadLength (leadOfBits bits)
  ⟨leadOfBits bits, bytesOfBits n (bits.drop 16), wordOfBits 16 (bits.drop (16 + 8 * n))⟩

/-- Whether bits are a part of a frame that stops before its last check bit. -/
def unfinished (bits : List Bool) : Bool :=
  match frameBits? bits with
  | some n => bits.length < n
  | none => true

/-- Whether bits stop at a frame's last check bit (R119). -/
def finished (bits : List Bool) : Bool := frameBits? bits == some bits.length

/-- Whether a received frame has the body length that its own lead fixes (R119). -/
def frameEnds (w : WireFrame) : Bool := w.body.length == leadLength w.lead

/-- Whether the received check bits equal the value computed over lead and body as received (R121). -/
def checkPasses (w : WireFrame) : Bool := w.check == checkValue w.lead w.body

/-- The index set that eight bytes carry; bytes beyond are not looked at. -/
def indexSetOfBytes : List Byte → IndexSet
  | [a, b, c, d, e, f, g, h] => a ++ b ++ c ++ d ++ e ++ f ++ g ++ h
  | _ => 0

/-- The items from a place in the body to its end, item after item; none when they do not parse exactly (R123).
The count bounds the items; a body of that many bytes holds fewer. -/
def parseItems : Nat → List Byte → Option (List Item)
  | _, [] => some []
  | 0, _ => none
  | _ + 1, [_] => none
  | n + 1, head :: version :: rest =>
    let size := Size.ofCode (head.extractLsb' 0 2)
    if rest.length < size.bytes then none
    else
      match parseItems n (rest.drop size.bytes) with
      | none => none
      | some items => some (⟨head.extractLsb' 2 6, size, version, rest.take size.bytes⟩ :: items)

/-- The items of a body, at least one and no index twice (R123). -/
def itemsOf (bytes : List Byte) : Option (List Item) :=
  match parseItems bytes.length bytes with
  | none => none
  | some items =>
    if items.isEmpty then none
    else if (items.map Item.index).Nodup then some items
    else none

/-- A beacon period in its range, 1..250 (R118, R122). -/
def periodInRange (p : Byte) : Bool := 1 ≤ p.toNat && p.toNat ≤ 250

/-- A target byte that names a station, 1..62 (R122). -/
def targetOf (b : Byte) : Option Station :=
  if 1 ≤ b.toNat && b.toNat ≤ 62 then some (b.setWidth 6) else none

/-- The body of a kind, read from the bytes after the epoch byte; none at a fault of R122. -/
def parseBody (kind : FrameKind) (bytes : List Byte) : Option FrameBody :=
  match kind, bytes with
  | .update, sequence :: rest => (itemsOf rest).map (FrameBody.update sequence)
  | .update, [] => none
  | .hello, [period] => if periodInRange period then some (.hello period) else none
  | .hello, _ => none
  | .ask, target :: flags :: believed :: rest =>
    if rest.length = 8 ∧ flags.extractLsb' 1 7 = 0 then
      (targetOf target).map (fun t => .ask t (flags.getLsbD 0) believed (indexSetOfBytes rest))
    else none
  | .ask, _ => none
  | .beacon, next :: period :: rest =>
    if rest.length = 8 ∧ periodInRange period = true then some (.beacon next period (indexSetOfBytes rest)) else none
  | .beacon, _ => none
  | .resend, rest => (itemsOf rest).map FrameBody.resend

/-- Whether an urgency is one of the kind's (R116). -/
def urgencyFits (urgency : BitVec 2) : FrameKind → Bool
  | .update => urgency == 0 || urgency == 2
  | .hello => urgency == 1
  | .ask => urgency == 1
  | .beacon => urgency == 2
  | .resend => urgency == 3

/-- Validation of a frame that has passed the check: its fields, or none at any fault of R122. -/
def validate (w : WireFrame) : Option Frame :=
  match FrameKind.ofCode (leadKind w.lead), w.body with
  | some kind, epoch :: rest =>
    if urgencyFits (leadUrgency w.lead) kind && namesStation (leadSender w.lead) then
      (parseBody kind rest).map (fun body => ⟨leadUrgency w.lead == 0, leadSender w.lead, epoch, body⟩)
    else none
  | _, _ => none

end Sys2Proof.Machine
end

