-- ==== Sys2Proof/Machine/Operands.lean ====
section
/-! DEFINITION. Machine/Operands.lean: the local port's codes, argument counts, argument bytes and response
layouts (file 10; file 11, section 11.3). -/

namespace Sys2Proof.Machine

open Sys2Proof

/-- The sixteen commands of the local port (file 10). -/
inductive PortCommand where
  | readStatus | readPoint | takeNotice | readPeer | readTallies | clearFault
  | setIdentity | setTiming | declarePoint | setWindow | commit
  | writePoint | recallPeer | withdraw | rejoin | restart
  deriving DecidableEq, Repr

/-- The class of a command (file 10, opening table). -/
inductive CommandClass where
  | configuringOnly | anyState | afterCommit
  deriving DecidableEq, Repr

/-- The code byte of a command (file 11, Code bytes and lengths; R195). -/
def PortCommand.code : PortCommand → Byte
  | .readStatus => 0x01
  | .readPoint => 0x02
  | .takeNotice => 0x03
  | .readPeer => 0x04
  | .readTallies => 0x05
  | .clearFault => 0x06
  | .setIdentity => 0x11
  | .setTiming => 0x12
  | .declarePoint => 0x13
  | .setWindow => 0x14
  | .commit => 0x15
  | .writePoint => 0x21
  | .recallPeer => 0x22
  | .withdraw => 0x23
  | .rejoin => 0x24
  | .restart => 0x25

/-- The sixteen commands in the order of their codes. -/
def PortCommand.all : List PortCommand :=
  [.readStatus, .readPoint, .takeNotice, .readPeer, .readTallies, .clearFault, .setIdentity, .setTiming,
   .declarePoint, .setWindow, .commit, .writePoint, .recallPeer, .withdraw, .rejoin, .restart]

/-- The command that a code byte names, if any (R195). -/
def PortCommand.ofCode (b : Byte) : Option PortCommand := PortCommand.all.find? (fun c => c.code == b)

/-- The row of the opcode table that a command is, with LDI bits of its transaction. -/
def PortCommand.toInstr (c : PortCommand) (ldi : List Bool) : Instr :=
  match c with
  | .readStatus => .readStatus ldi
  | .readPoint => .readPoint ldi
  | .takeNotice => .takeNotice ldi
  | .readPeer => .readPeer ldi
  | .readTallies => .readTallies ldi
  | .clearFault => .clearFault ldi
  | .setIdentity => .setIdentity ldi
  | .setTiming => .setTiming ldi
  | .declarePoint => .declarePoint ldi
  | .setWindow => .setWindow ldi
  | .commit => .commit ldi
  | .writePoint => .writePoint ldi
  | .recallPeer => .recallPeer ldi
  | .withdraw => .withdraw ldi
  | .rejoin => .rejoin ldi
  | .restart => .restart ldi

/-- Bytes as LDI and LDO carry them, each most significant bit first (R180). -/
def portBits (bytes : List Byte) : List Bool := bytes.flatMap sentBits

/-- The class of each command (file 10, opening table). -/
def PortCommand.classOf : PortCommand → CommandClass
  | .readStatus => .anyState
  | .readPoint => .anyState
  | .takeNotice => .anyState
  | .readPeer => .anyState
  | .readTallies => .anyState
  | .clearFault => .anyState
  | .setIdentity => .configuringOnly
  | .setTiming => .configuringOnly
  | .declarePoint => .configuringOnly
  | .setWindow => .configuringOnly
  | .commit => .configuringOnly
  | .writePoint => .afterCommit
  | .recallPeer => .afterCommit
  | .withdraw => .afterCommit
  | .rejoin => .afterCommit
  | .restart => .afterCommit

/-- Whether a class is open in a station state (R184, check 2). -/
def CommandClass.opens (c : CommandClass) (st : StationState) : Bool :=
  match c with
  | .anyState => true
  | .configuringOnly => st == .configuring
  | .afterCommit => st != .configuring

/-! ### Argument bytes (R181, R196) -/

/-- A station byte: a value outside 1..62 is out of range. -/
def stationArg (b : Byte) : Option Station :=
  if 1 ≤ b.toNat && b.toNat ≤ 62 then some (b.setWidth 6) else none

/-- An index byte: a value above 63 is out of range. -/
def indexArg (b : Byte) : Option Index := if b.toNat ≤ 63 then some (b.setWidth 6) else none

/-- An enabled or urgent byte: only 0x00 and 0x01 are in range. -/
def flagArg (b : Byte) : Option Bool := if b = 0 then some false else if b = 1 then some true else none

/-- A packed key: bits 11..6 station part, bits 5..0 index part; bits 15..12 are not read. -/
def packedKeyArg (high low : Byte) : Key :=
  let w : Word16 := high ++ low
  ⟨w.extractLsb' 6 6, w.extractLsb' 0 6⟩

/-- The size code byte of DECLARE_POINT: bits 1..0; bits 7..2 are not read. -/
def sizeArg (b : Byte) : Size := Size.ofCode (b.extractLsb' 0 2)

/-- A rate code byte. -/
def rateArg (b : Byte) : Option Rate :=
  if b = 0 then some .k31 else if b = 1 then some .k62 else if b = 2 then some .k125
  else if b = 3 then some .k250 else none

/-- A publish code byte. -/
def intervalArg (b : Byte) : Option PublishInterval :=
  if b = 0 then some .ms2 else if b = 1 then some .ms5 else if b = 2 then some .ms10
  else if b = 3 then some .ms20 else if b = 4 then some .ms50 else none

/-- A multiple code byte. -/
def multipleArg (b : Byte) : Option BeaconMultiple :=
  if b = 0 then some .x4 else if b = 1 then some .x8 else if b = 2 then some .x16 else none

/-- A recall-wait code byte. -/
def recallWaitArg (b : Byte) : Option RecallWait :=
  if b = 0 then some .ms10 else if b = 1 then some .ms20 else if b = 2 then some .ms40
  else if b = 3 then some .ms80 else none

/-- A mode byte. -/
def modeArg (b : Byte) : Option NotifyMode :=
  if b = 0 then some .quiet else if b = 1 then some .onChange else if b = 2 then some .onEvery else none

/-- A CLEAR_FAULT byte: any of bits 7..5 set is out of range. -/
def faultsArg (b : Byte) : Option FaultFlags :=
  if b.extractLsb' 5 3 = 0 then some (FaultFlags.ofByte b) else none

/-- The own entry of an index (R2). -/
def PointTable.own? (t : PointTable) (i : Index) : Option OwnEntry :=
  tableFind (fun e => e.index.toNat) i.toNat t.own

/-- The argument bytes WRITE_POINT needs once its index byte is known: the value too if the index is declared,
none after the index if it is not (R181). -/
def writeCount (t : PointTable) (b : Byte) : Nat :=
  match (indexArg b).bind t.own? with
  | some e => 1 + e.size.bytes
  | none => 1

/-- The number of argument bytes a command needs, as far as the bytes received fix it (R181). -/
def argCount (t : PointTable) (c : PortCommand) (args : List Byte) : Option Nat :=
  match c with
  | .readStatus => some 0
  | .readPoint => some 2
  | .takeNotice => some 0
  | .readPeer => some 1
  | .readTallies => some 0
  | .clearFault => some 1
  | .setIdentity => some 2
  | .setTiming => some 4
  | .declarePoint =>
    match args with
    | _ :: size :: _ => some (3 + (sizeArg size).bytes)
    | _ => none
  | .setWindow => some 7
  | .commit => some 0
  | .writePoint =>
    match args with
    | index :: _ => some (writeCount t index)
    | [] => none
  | .recallPeer => some 1
  | .withdraw => some 0
  | .rejoin => some 0
  | .restart => some 0

/-! ### Replies (R184, R197) -/

/-- OK without response bytes. -/
def Reply.ok : Reply := ⟨.ok, []⟩

/-- A result other than OK, which has no response bytes (R182). -/
def Reply.refusal (r : ResultCode) : Reply := ⟨r, []⟩

/-- The value each result is sent as (file 11, Result codes). -/
def ResultCode.byte : ResultCode → Byte
  | .ok => 0x00
  | .empty => 0x01
  | .notFound => 0x02
  | .badArgument => 0x03
  | .badState => 0x04
  | .badCommand => 0x05
  | .badConfig => 0x06

/-- State codes of READ_STATUS and STATE notices (file 11). -/
def StationState.stateByte : StationState → Byte
  | .configuring => 0
  | .joining => 1
  | .inService => 2
  | .listening _ => 3

/-- Cause codes of READ_STATUS and STATE notices (file 11). -/
def StationState.causeByte : StationState → Byte
  | .configuring => 0
  | .joining => 0
  | .inService => 0
  | .listening .command => 1
  | .listening .lineTrouble => 2
  | .listening .duplicate => 3

/-- State codes of READ_PEER (file 11). -/
def PeerState.byte : PeerState → Byte
  | .live => 0
  | .recovering => 1
  | .silent => 2
  | .lost => 3

/-- Status codes of a mirrored entry in READ_POINT (file 11). -/
def MirrorState.byte : MirrorState → Byte
  | .valid => 0
  | .suspect => 1
  | .stale => 2

/-- Kind codes of the peer notices (file 11). -/
def PeerNotice.byte : PeerNotice → Byte
  | .new => 5
  | .restarted => 6
  | .gap => 7
  | .silent => 8
  | .lost => 9
  | .back => 10
  | .overflow => 11
  | .recallDone => 12
  | .recallFailed => 13

/-- Bytes 1..7 of a TAKE_NOTICE response: kind, subject station and index, version, state, cause, count; a field
the kind does not carry reads 0x00 (R197). -/
def NoticeBody.bytes : NoticeBody → List Byte
  | .updated k v => [1, k.station.setWidth 8, k.index.setWidth 8, v, 0, 0, 0]
  | .refreshed k v => [2, k.station.setWidth 8, k.index.setWidth 8, v, 0, 0, 0]
  | .clash k v => [3, k.station.setWidth 8, k.index.setWidth 8, v, 0, 0, 0]
  | .tableFull k v => [4, k.station.setWidth 8, k.index.setWidth 8, v, 0, 0, 0]
  | .peer kind st => [kind.byte, st.setWidth 8, 0, 0, 0, 0, 0]
  | .state own entered => [14, own.setWidth 8, 0, 0, entered.stateByte, entered.causeByte, 0]
  | .lostNotices count => [15, 0, 0, 0, 0, 0, count]

/-- The nine bytes of a TAKE_NOTICE response (R197). -/
def NoticeRecord.bytes (r : NoticeRecord) : List Byte := r.body.bytes ++ word16Bytes r.time

/-- The twelve bytes of a READ_TALLIES response (file 11). -/
def State.talliesBytes (s : State) : List Byte :=
  word16Bytes s.frame.good ++ word16Bytes s.frame.check ++ word16Bytes s.frame.cut ++ word16Bytes s.frame.format ++
    word16Bytes s.arbiter.arbLost ++ word16Bytes s.arbiter.txFail

/-- The fourteen bytes of a READ_STATUS response (R188, file 11). All blocks are read between two whole events; that
an event may be seen at one block and not yet at another, as R188 allows, is left out (log 30). -/
def State.statusBytes (s : State) : List Byte :=
  [s.control.state.stateByte, s.control.state.causeByte, s.control.faults.toByte,
   (s.control.station.getD 0).setWidth 8, s.control.epoch, s.publication.sequence,
   BitVec.ofNat 8 s.publication.publishSet.length, BitVec.ofNat 8 (IndexSet.size s.publication.replay),
   BitVec.ofNat 8 s.peers.records.length] ++
  word16Bytes (BitVec.ofNat 16 (s.points.own.length + s.points.mirrored.length)) ++
  [BitVec.ofNat 8 s.notices.queue.length] ++ word16Bytes s.control.clock

end Sys2Proof.Machine
end

