-- ==== Sys2Proof/Decode.lean ====
section
/-! DEFINITION. Decode.lean: the words that spell a command. spec/opcode_table.json gives no row any bits; the code bytes of
R195 give sixteen of its rows a word, the bytes of a transaction. -/

namespace Sys2Proof

open Machine

/-- The bytes of a word, the first in bits 7..0. -/
def wordBytes (nbits w : Nat) : List Byte := (List.range (nbits / 8)).map (fun k => BitVec.ofNat 8 (w / 2 ^ (8 * k)))

/-- The local-port command that the bytes of a transaction spell, the code byte first (R195). A code byte without a row
spells none, and no other command has a word (log 2). -/
def decodeTableWord (nbits w : Nat) : Option Instr :=
  match wordBytes nbits w with
  | [] => none
  | code :: args => (PortCommand.ofCode code).map (fun c => c.toInstr (portBits (code :: args)))

end Sys2Proof
end

