-- ==== Sys2Proof/Config.lean ====
section
/-! DEFINITION. Config.lean: the free values, which the manual leaves open. None has a body: nothing can
be proved about one of them. Each is applied to `State.freeCount`, a counter that the steps read and advance. -/

namespace Sys2Proof

/-- Whether the owner of a command has returned its result before a byte that begins in phase WAITING; a byte before
that carries filler (R182). Log 11. -/
opaque Config.resultReady : Nat → Bool

/-- Whether station control takes its part of a good frame before the peer unit takes its own (R127 gives the
blocks no order). It shows only at the frame that ends LISTENING(LINE_TROUBLE). Log 13. -/
opaque Config.controlFirst : Nat → Bool

/-- The place of a station in the order in which one join recall offers its RECALL_DONE notices (R168 gives
no order of the records). Log 14. -/
opaque Config.noticeRank : Nat → Station → Nat

end Sys2Proof
end

