-- ==== Sys2Proof/Machine/Notices.lean ====
section
/-! DEFINITION. Machine/Notices.lean: interest windows and the Notice Queue (file 05): matching, notify modes,
offers, coalescing, overflow and removal. -/

namespace Sys2Proof.Machine

open Sys2Proof

/-! ### Windows -/

/-- A key matches an enabled window when every key bit whose mask bit is 0 equals the base key's bit (R97). -/
def Window.matches (w : Window) (k : Key) : Bool :=
  w.enabled && ((k.bits ^^^ w.base.bits) &&& ~~~w.mask.bits) == 0

/-- The interest set of a station under the windows: no own key ever counts as a match (R98). -/
def interestSet (windows : Vector Window 8) (own : Option Station) (n : Station) : IndexSet :=
  if own = some n then 0
  else IndexSet.ofPred (fun i => windows.toList.any (fun w => w.matches ⟨n, i⟩))

/-- The mode of a key: that of the lowest-numbered enabled window that matches it (R99). -/
def keyMode (windows : Vector Window 8) (k : Key) : Option NotifyMode :=
  (windows.toList.find? (fun w => w.matches k)).map Window.mode

/-- Whether a notice passes the mode of its key; every kind but UPDATED, REFRESHED and CLASH passes always
(R99, R100). -/
def passes (windows : Vector Window 8) : NoticeBody → Bool
  | .updated k _ => keyMode windows k == some .onChange || keyMode windows k == some .onEvery
  | .clash k _ => keyMode windows k == some .onChange || keyMode windows k == some .onEvery
  | .refreshed k _ => keyMode windows k == some .onEvery
  | .tableFull _ _ => true
  | .peer _ _ => true
  | .state _ _ => true
  | .lostNotices _ => true

/-! ### The queue -/

/-- Whether a record is an UPDATED or REFRESHED record of a key (R103). -/
def NoticeRecord.isChangeOf (k : Key) (r : NoticeRecord) : Bool :=
  match r.body with
  | .updated k' _ => k' == k
  | .refreshed k' _ => k' == k
  | .clash _ _ => false
  | .tableFull _ _ => false
  | .peer _ _ => false
  | .state _ _ => false
  | .lostNotices _ => false

/-- Appends at the tail when fewer than 32 records are queued; otherwise the offer is discarded and counted
(R105, R106). -/
def NoticeUnit.append (u : NoticeUnit) (r : NoticeRecord) : NoticeUnit :=
  if u.queue.length < 32 then { u with queue := u.queue ++ [r] }
  else { u with overflow := true, lostCount := lostRise u.lostCount }

/-- Folds an UPDATED offer into the queued change record of its key, which keeps its position; the head record
being taken is then marked changed (R103, R110). -/
def NoticeUnit.coalesce (u : NoticeUnit) (k : Key) (version : Byte) (time : Word16) : NoticeUnit :=
  { u with
    queue := u.queue.map (fun r => if r.isChangeOf k then ⟨.updated k version, time⟩ else r)
    mark :=
      if u.mark != .none && (u.queue.head?.map (NoticeRecord.isChangeOf k)).getD false then .changed else u.mark }

/-- Whether a change record of a key is queued. -/
def NoticeUnit.holdsChange (u : NoticeUnit) (k : Key) : Bool := u.queue.any (NoticeRecord.isChangeOf k)

/-- An offer that passes its mode: coalesced, dropped or appended (R100, R103, R104, R105). -/
def NoticeUnit.take (u : NoticeUnit) (r : NoticeRecord) : NoticeUnit :=
  match r.body with
  | .updated k version => if u.holdsChange k then u.coalesce k version r.time else u.append r
  | .refreshed k _ => if u.holdsChange k then u else u.append r
  | .clash _ _ => u.append r
  | .tableFull _ _ => u.append r
  | .peer _ _ => u.append r
  | .state _ _ => u.append r
  | .lostNotices _ => u.append r

/-- One offer, filtered by its key's mode and then taken (R100). -/
def NoticeUnit.offer (u : NoticeUnit) (r : NoticeRecord) : NoticeUnit :=
  if passes u.windows r.body then u.take r else u

/-- The head leaves; the place it frees after an overflow is filled by LOST_NOTICES in the same event
(R107, R109). -/
def NoticeUnit.removeHead (u : NoticeUnit) (time : Word16) : NoticeUnit :=
  if u.overflow then
    { u with queue := u.queue.tail ++ [⟨.lostNotices u.lostCount, time⟩], overflow := false, lostCount := 0 }
  else { u with queue := u.queue.tail }

/-- The end of the last response byte of a TAKE_NOTICE: a head marked changed stays, its marks cleared
(R109, R110). -/
def NoticeUnit.finishTake (u : NoticeUnit) (time : Word16) : NoticeUnit :=
  match u.mark with
  | .none => u
  | .taking => { u.removeHead time with mark := .none }
  | .changed => { u with mark := .none }

/-- A block offers a notice; its time is the millisecond clock reading at the event (R100, R179). -/
def State.offer (s : State) (b : NoticeBody) : State := s.setNotices (s.notices.offer ⟨b, s.control.clock⟩)

/-- The STATE notice of the state now held (R163). -/
def State.offerState (s : State) : State := s.offer (.state s.ownNumber s.control.state)

end Sys2Proof.Machine
end

