-- ==== Sys2Proof/Machine/Points.lean ====
section
/-! DEFINITION. Machine/Points.lean: the point table (file 01): lookups, versions, acceptance of items, reclaim,
bulk state changes, ages and the READ_POINT response. -/

namespace Sys2Proof.Machine

open Sys2Proof

/-- The mirrored entry of a key (R2). -/
def PointTable.mirror? (t : PointTable) (k : Key) : Option MirrorEntry :=
  tableFind (fun e => e.key.rank) k.rank t.mirrored

/-- The count of entries, own and mirrored together (R2). -/
def PointTable.count (t : PointTable) : Nat := t.own.length + t.mirrored.length

/-- The table with an entry created or replaced at its key. -/
def PointTable.putMirror (t : PointTable) (e : MirrorEntry) : PointTable :=
  { t with mirrored := tableInsert (fun e => e.key.rank) e t.mirrored }

/-- The table with the entry of a key freed. -/
def PointTable.freeMirror (t : PointTable) (k : Key) : PointTable :=
  { t with mirrored := tableErase (fun e => e.key.rank) k.rank t.mirrored }

/-! ### Versions (R9) -/

/-- The three relations of an item version to a held version. -/
inductive VersionRelation where
  | same | newer | older
  deriving DecidableEq, Repr

/-- The relation of item version `v` to held version `h`, by the difference modulo 256 (R9). -/
def versionRelation (v h : Byte) : VersionRelation :=
  let d := (v - h).toNat
  if d = 0 then .same else if d ≤ 127 then .newer else .older

/-! ### Acceptance (R11 to R17) -/

/-- The kind of frame that carried an item (R10). -/
inductive Carrier where
  | update | resend
  deriving DecidableEq, Repr

/-- What an item does to an entry that holds its key (R12 to R14). -/
inductive Acceptance where
  | ignore
  | refresh
  | apply (clash : Bool)
  deriving DecidableEq, Repr

/-- Whether an item leaves an entry's version, size and value as they are held. -/
def MirrorEntry.holdsSame (e : MirrorEntry) (i : Item) : Bool :=
  e.version == i.version && e.size == i.size && e.value == i.value

/-- The decision of R12 (VALID), R13 (SUSPECT) and R14 (STALE), with the CLASH of R16. -/
def MirrorEntry.judge (e : MirrorEntry) (carrier : Carrier) (i : Item) : Acceptance :=
  match e.state with
  | .stale => if e.holdsSame i then .refresh else .apply false
  | .valid =>
    match versionRelation i.version e.version with
    | .newer => .apply (i.size != e.size)
    | .same => if e.holdsSame i then .refresh else .apply true
    | .older => .ignore
  | .suspect =>
    match versionRelation i.version e.version with
    | .newer => .apply (i.size != e.size)
    | .same => if e.holdsSame i then .refresh else .apply true
    | .older => if carrier = .resend then .apply false else .ignore

/-- The entry an item makes when it is applied or creates the entry (R11, R15). -/
def appliedEntry (k : Key) (i : Item) (time : Word16) : MirrorEntry :=
  ⟨k, i.size, .valid, i.value, i.version, time, false⟩

/-- The entry after a refresh: time, state and mark alone (R15). -/
def MirrorEntry.refreshed (e : MirrorEntry) (time : Word16) : MirrorEntry :=
  { e with state := .valid, time := time, ageSaturated := false }

/-- State with an entry put into the point table. -/
def State.putMirror (s : State) (e : MirrorEntry) : State := s.setPoints (s.points.putMirror e)

/-- The record of a station (R49). -/
def PeerUnit.find? (u : PeerUnit) (n : Station) : Option PeerRecord :=
  tableFind (fun r => r.station.toNat) n.toNat u.records

/-- Whether a station's record is LOST. -/
def PeerUnit.isLost (u : PeerUnit) (n : Station) : Bool :=
  match u.find? n with
  | some r => r.state == .lost
  | none => false

/-- The entry to reclaim when the table is full: STALE, its owner LOST, the lowest key first (R19). -/
def State.reclaimEntry? (s : State) : Option MirrorEntry :=
  s.points.mirrored.find? (fun e => e.state == .stale && s.peers.isLost e.key.station)

/-- The creation of an entry by an item of interest, with the reclaim of R19 and the refusal of R20. -/
def State.createEntry (s : State) (k : Key) (i : Item) : State :=
  if s.points.count < 256 then
    (s.putMirror (appliedEntry k i s.control.clock)).offer (.updated k i.version)
  else
    match s.reclaimEntry? with
    | some e =>
      ((s.setPoints (s.points.freeMirror e.key)).putMirror (appliedEntry k i s.control.clock)).offer
        (.updated k i.version)
    | none => (s.setFaults { s.control.faults with tableFull := true }).offer (.tableFull k i.version)

/-- An item applied to the entry that holds its key, with its notices: UPDATED first, CLASH second (R17). -/
def State.applyItem (s : State) (k : Key) (i : Item) (clash : Bool) : State :=
  let s' := (s.putMirror (appliedEntry k i s.control.clock)).offer (.updated k i.version)
  if clash then s'.offer (.clash k i.version) else s'

/-- One item taken by the point table; `interest` is I(S) of the sender's record (R10 to R20). -/
def State.takeItem (s : State) (sender : Station) (interest : IndexSet) (carrier : Carrier) (i : Item) : State :=
  let k : Key := ⟨sender, i.index⟩
  match s.points.mirror? k with
  | none => if IndexSet.mem interest i.index then s.createEntry k i else s
  | some e =>
    match e.judge carrier i with
    | .ignore => s
    | .refresh => (s.putMirror (e.refreshed s.control.clock)).offer (.refreshed k e.version)
    | .apply clash => s.applyItem k i clash

/-! ### Bulk state changes (R23 to R25) -/

/-- Every VALID entry of a station becomes SUSPECT (R23). -/
def PointTable.suspectAll (t : PointTable) (n : Station) : PointTable :=
  { t with
    mirrored := t.mirrored.map (fun e =>
      if e.key.station = n ∧ e.state = .valid then { e with state := .suspect } else e) }

/-- The entries of a station at the indexes of a set become STALE; indexes without an entry are passed over
(R24). -/
def PointTable.staleThese (t : PointTable) (n : Station) (set : IndexSet) : PointTable :=
  { t with
    mirrored := t.mirrored.map (fun e =>
      if e.key.station = n ∧ IndexSet.mem set e.key.index = true then { e with state := .stale } else e) }

/-- Every entry of a station becomes STALE (R24). -/
def PointTable.staleAll (t : PointTable) (n : Station) : PointTable :=
  { t with mirrored := t.mirrored.map (fun e => if e.key.station = n then { e with state := .stale } else e) }

/-- Every mirrored entry of a station is freed (R25). -/
def PointTable.removeAll (t : PointTable) (n : Station) : PointTable :=
  { t with mirrored := t.mirrored.filter (fun e => e.key.station != n) }

/-- The VALID indexes of a station (R168). -/
def PointTable.validSet (t : PointTable) (n : Station) : IndexSet :=
  IndexSet.ofList ((t.mirrored.filter (fun e => e.key.station == n && e.state == .valid)).map (fun e => e.key.index))

/-! ### Own entries (R4, R8, R36, R38) -/

/-- The own entry that a declaration creates at COMMIT (R4, R28). -/
def Declaration.toEntry (d : Declaration) : OwnEntry := ⟨d.index, d.size, d.urgent, d.initial, none⟩

/-- The table with the own entry of an index changed. -/
def PointTable.mapOwn (t : PointTable) (i : Index) (f : OwnEntry → OwnEntry) : PointTable :=
  { t with own := t.own.map (fun e => if e.index = i then f e else e) }

/-- The declared indexes in ascending order (R28). -/
def PointTable.declared (t : PointTable) : List Index := t.own.map OwnEntry.index

/-- Whether an index is a declared urgent point (R33). -/
def PointTable.urgent (t : PointTable) (i : Index) : Bool :=
  match t.own? i with
  | some e => e.urgent
  | none => false

/-- The version an item of this entry carries: 0 when nothing is published, one more otherwise (R36). -/
def OwnEntry.nextVersion (e : OwnEntry) : Byte :=
  match e.published with
  | none => 0
  | some p => p.version + 1

/-- The item an UPDATE carries for an own entry: a snapshot of the current value (R36). -/
def OwnEntry.snapshot (e : OwnEntry) : Item := ⟨e.index, e.size, e.nextVersion, e.current⟩

/-- The item a RESEND carries for an own entry: the published value and version (R92). -/
def OwnEntry.replayItem (e : OwnEntry) : Option Item :=
  e.published.map (fun p => ⟨e.index, e.size, p.version, p.value⟩)

/-- The snapshots and versions of a completed UPDATE become published (R38, step 1). -/
def PointTable.publish (t : PointTable) (items : List Item) : PointTable :=
  items.foldl (fun t i => t.mapOwn i.index (fun e => { e with published := some ⟨i.value, i.version⟩ })) t

/-! ### Ages and reads (R5, R18, R21) -/

/-- The age of a mirrored entry (R18). -/
def MirrorEntry.age (e : MirrorEntry) (clock : Word16) : Word16 :=
  if e.ageSaturated then 0xFFFF else clock - e.time

/-- The mark set at the advance at which the computed age reaches 65535 (R18). -/
def MirrorEntry.watchAge (clock : Word16) (e : MirrorEntry) : MirrorEntry :=
  if clock - e.time = 0xFFFF then { e with ageSaturated := true } else e

/-- Whether an own index is in the Publish Set or in the in-flight list (R5). -/
def Publication.waiting (p : Publication) (i : Index) : Bool :=
  p.publishSet.contains i ||
    (match p.flight with
     | some f => (f.items.map Item.index).contains i
     | none => false)

/-- The status byte of an own entry: UNPUBLISHED 3, PENDING 4, PUBLISHED 5 (R5, file 11). -/
def ownStatusByte (p : Publication) (e : OwnEntry) : Byte :=
  if e.published.isNone then 3 else if p.waiting e.index then 4 else 5

/-- The number of bytes of a value, as READ_POINT reports it (file 11). -/
def Size.byte (z : Size) : Byte := BitVec.ofNat 8 z.bytes

/-- The READ_POINT response of an own entry (R21). -/
def OwnEntry.bytes (p : Publication) (e : OwnEntry) : List Byte :=
  [ownStatusByte p e, e.size.byte, (e.published.map Published.version).getD 0] ++ e.current ++ word16Bytes 0

/-- The READ_POINT response of a mirrored entry (R21). -/
def MirrorEntry.bytes (clock : Word16) (e : MirrorEntry) : List Byte :=
  [e.state.byte, e.size.byte, e.version] ++ e.value ++ word16Bytes (e.age clock)

/-- The READ_POINT response of a key, or none for an absent key (R3, R21). -/
def State.pointBytes (s : State) (k : Key) : Option (List Byte) :=
  if s.isOwn k.station then (s.points.own? k.index).map (OwnEntry.bytes s.publication)
  else (s.points.mirror? k).map (MirrorEntry.bytes s.control.clock)

end Sys2Proof.Machine
end

