-- ==== Sys2Proof/Machine/Recall.lean ====
section
/-! DEFINITION. Machine/Recall.lean: the peer unit's records and recall (file 04): needs, ASK due, the ASK frame and
its outcomes, merging, recall wait and failure, forced recall, the join recall. -/

namespace Sys2Proof.Machine

open Sys2Proof

/-! ### Records -/

/-- State with the record of a station changed, if there is one. -/
def State.mapPeer (s : State) (n : Station) (f : PeerRecord → PeerRecord) : State :=
  s.setPeers { s.peers with records := s.peers.records.map (fun r => if r.station = n then f r else r) }

/-- A set bounded by the published index set where that is known (R87). -/
def PeerRecord.bounded (r : PeerRecord) : IndexSet :=
  match r.published with
  | some p => r.interest &&& p
  | none => r.interest

/-- A record's beacon period in ms: its own, or the station's own that stands in for it (R50). -/
def PeerRecord.periodMs (r : PeerRecord) (t : Timing) : Nat :=
  match r.period with
  | some p => 2 * p.toNat
  | none => t.beaconMs

/-- A record's beacon period in 2 ms units, as READ_PEER reports it (R70). -/
def PeerRecord.periodUnits (r : PeerRecord) (t : Timing) : Byte := r.period.getD t.beaconUnits

/-- The READ_PEER response (R70, R197). -/
def PeerRecord.bytes (r : PeerRecord) (t : Timing) : List Byte :=
  [r.state.byte, r.epoch, r.expected.getD 0, if r.expected.isSome then 0 else 1] ++ IndexSet.toBytes r.need ++
    [BitVec.ofNat 8 r.attempts, r.periodUnits t]

/-- The recall state emptied, as every event that ends a recall leaves it (R58, R64, R67). -/
def PeerRecord.clearRecall (r : PeerRecord) : PeerRecord :=
  { r with need := 0, covered := 0, askDue := false, attempts := 0, recallWait := .stopped }

/-! ### The ASK want and the marker -/

/-- The ASK want is raised while a record has ASK due and no own ASK is in flight (R74). -/
def State.judgeAsk (s : State) : State :=
  s.setWant .ask (s.peers.records.any PeerRecord.askDue && s.peers.asking.isNone)

/-- The ASK in flight to a station, if there is one, is disowned (R78). -/
def State.disown (s : State) (n : Station) : State :=
  s.setPeers
    { s.peers with asking := s.peers.asking.map (fun a => if a.target = n then { a with owned := false } else a) }

/-- Whether an own ASK to a station is in flight, owned or disowned (R79, R80). -/
def PeerUnit.asks (u : PeerUnit) (n : Station) : Bool :=
  match u.asking with
  | some a => a.target == n
  | none => false

/-! ### The ASK frame (R75 to R77) -/

/-- The record an ASK start chooses: ASK due, lowest station number (R75). -/
def PeerUnit.dueRecord? (u : PeerUnit) : Option PeerRecord := u.records.find? PeerRecord.askDue

/-- The frame of an ASK for a record (R75). -/
def State.askFrame (s : State) (r : PeerRecord) : Frame :=
  ⟨false, s.ownNumber, s.control.epoch,
   .ask r.station r.beaconWanted r.epoch (IndexSet.diff r.need r.covered)⟩

/-- The start of an ASK: the marker is filled and the want lowered; declined when no record is due (R75). -/
def State.startAsk (s : State) : Option (Frame × State) :=
  match s.peers.dueRecord? with
  | none => none
  | some r =>
    some (s.askFrame r,
      (s.setPeers { s.peers with asking := some ⟨r.station, IndexSet.diff r.need r.covered, true⟩ }).judgeAsk)

/-- What an owned ASK's completion does at its target's record (R76). -/
def PeerRecord.askCompleted (r : PeerRecord) (start : Timer) : PeerRecord :=
  { r with askDue := false, attempts := r.attempts + 1, recallWait := start, covered := 0, beaconWanted := false }

/-- The marker emptied. -/
def State.emptyMarker (s : State) : State := s.setPeers { s.peers with asking := none }

/-- The completion of an own ASK (R76). -/
def State.completeAsk (s : State) : State :=
  match s.peers.asking with
  | none => s
  | some a =>
    let s' := if a.owned then s.mapPeer a.target (fun r => r.askCompleted s.recallStart) else s
    s'.emptyMarker.judgeAsk

/-- An own ASK lost or failed (R77). -/
def State.returnAsk (s : State) : State := s.emptyMarker.judgeAsk

/-! ### Merging (R79, R80) -/

/-- What a meeting by others does at a record (R80). -/
def PeerRecord.met (r : PeerRecord) (start : Timer) : PeerRecord :=
  { r with askDue := false, attempts := r.attempts + 1, recallWait := start, covered := 0 }

/-- A record met by others, if it is due, its need is covered and no own ASK to it is in flight (R80). -/
def State.testMet (s : State) (n : Station) : State :=
  match s.peers.find? n with
  | none => s
  | some r =>
    if r.askDue && IndexSet.subset r.need r.covered && !s.peers.asks n then
      s.mapPeer n (fun r => r.met s.recallStart)
    else s

/-- Another station's ASK merges into the record of its target (R79). -/
def State.mergeAsk (s : State) (target : Station) (asked : IndexSet) : State :=
  match s.peers.find? target with
  | none => s
  | some r =>
    if r.askDue && !s.peers.asks target then
      ((s.mapPeer target (fun r => { r with covered := r.covered ||| asked })).testMet target).judgeAsk
    else s

/-! ### Recovery complete and recall failure (R64, R84) -/

/-- A RECOVERING record whose need has emptied becomes LIVE, with RECALL_DONE (R64). -/
def State.recoveryComplete (s : State) (n : Station) : State :=
  ((s.mapPeer n (fun r => { r.clearRecall with state := .live, beaconWanted := false })).disown n).offer
    (.peer .recallDone n)

/-- A recall fails: the needed entries become STALE, the record LIVE, with RECALL_FAILED (R84). -/
def State.recallFailed (s : State) (r : PeerRecord) : State :=
  ((s.setPoints (s.points.staleThese r.station r.need)).mapPeer r.station
    (fun r => { r.clearRecall with state := .live, beaconWanted := false })).offer (.peer .recallFailed r.station)

/-- The expiry of a record's recall-wait timer (R83). -/
def State.recallWaitExpires (s : State) (r : PeerRecord) : State :=
  if r.attempts < 3 then
    (s.mapPeer r.station (fun r => { r with askDue := true, recallWait := .stopped })).judgeAsk
  else (s.recallFailed r).judgeAsk

/-! ### Forced recall (R88) -/

/-- A recall begun afresh with a need: forced recall and join expiry (R88, R168). -/
def PeerRecord.beginRecall (r : PeerRecord) (need : IndexSet) : PeerRecord :=
  { r with
    state := .recovering, need := need, covered := 0, attempts := 0, recallWait := .stopped, askDue := true }

/-- RECALL_PEER at a record that is not LOST (R88). -/
def State.forceRecall (s : State) (r : PeerRecord) : State :=
  if r.bounded = 0 then s
  else (s.mapPeer r.station (fun r => r.beginRecall r.bounded)).judgeAsk

/-! ### Silence and loss (R67, R68) -/

/-- The expiry of the silence timer of a LIVE or RECOVERING record (R67). -/
def State.fallSilent (s : State) (r : PeerRecord) : State :=
  let limit := msPeriods (5 * r.periodMs s.control.timing)
  ((((s.setPoints (s.points.staleAll r.station)).mapPeer r.station
    (fun r => { r.clearRecall with state := .silent, silence := .running .loss limit })).disown r.station).offer
    (.peer .silent r.station)).judgeAsk

/-- The expiry of the silence timer of a SILENT record (R68). -/
def State.becomeLost (s : State) (r : PeerRecord) : State :=
  let s' := s.mapPeer r.station (fun r => { r with state := .lost, silence := .stopped })
  (s'.setPeers { s'.peers with lossList := s'.peers.lossList ++ [r.station] }).offer (.peer .lost r.station)

/-- The expiry of a record's silence timer. -/
def State.silenceExpires (s : State) (r : PeerRecord) : State :=
  match r.state with
  | .live => s.fallSilent r
  | .recovering => s.fallSilent r
  | .silent => s.becomeLost r
  | .lost => s

/-! ### The join recall (R168) -/

/-- The join need: what of the bounded interest set has no VALID entry. -/
def State.joinNeed (s : State) (r : PeerRecord) : IndexSet := IndexSet.diff r.bounded (s.points.validSet r.station)

/-- Whether the join expiry takes a record: LIVE or RECOVERING, with interest. -/
def PeerRecord.joins (r : PeerRecord) : Bool := (r.state == .live || r.state == .recovering) && r.interest != 0

/-- A record after the join recall, but for the recoveries it completes. -/
def State.joinRecord (s : State) (r : PeerRecord) : PeerRecord :=
  if r.joins && s.joinNeed r != 0 then r.beginRecall (s.joinNeed r) else r

/-- The stations whose recovery the join recall completes. -/
def State.joinDone (s : State) : List Station :=
  (s.peers.records.filter (fun r => r.joins && s.joinNeed r == 0 && r.state == .recovering)).map PeerRecord.station

/-- A station put before the first of a higher rank. -/
def insertRanked (rank : Station → Nat) (n : Station) : List Station → List Station
  | [] => [n]
  | m :: ms => if rank n ≤ rank m then n :: m :: ms else m :: insertRanked rank n ms

/-- A list of stations in the order that the free value gives (log 14). -/
def freeOrder (count : Nat) (l : List Station) : List Station := l.foldr (insertRanked (Config.noticeRank count)) []

/-- The peer unit's part of the join expiry (R168). -/
def State.joinRecall (s : State) : State :=
  let s' := s.setPeers { s.peers with records := s.peers.records.map s.joinRecord }
  ((freeOrder s.freeCount s.joinDone).foldl State.recoveryComplete s').judgeAsk.bumpFree

/-! ### Recall-wait timers across station states (R71, R82) -/

/-- The records with every recall-wait timer changed. -/
def PeerUnit.mapWaits (u : PeerUnit) (f : Timer → Timer) : PeerUnit :=
  { u with records := u.records.map (fun r => { r with recallWait := f r.recallWait }) }

end Sys2Proof.Machine
end

