-- ==== Sys2Proof/Machine/Classify.lean ====
section
/-! DEFINITION. Machine/Classify.lean: the peer unit's classification of a good frame against its sender's record,
step by step (file 03, section 3.3). -/

namespace Sys2Proof.Machine

open Sys2Proof

/-! ### Step 1: find, make room, reclaim (R55, R56) -/

/-- The record to reclaim when the Peer Table is full: the head of the loss list, or else the record with an
empty interest set and the lowest station number (R55). -/
def PeerUnit.reclaimStation? (u : PeerUnit) : Option Station :=
  match u.lossList with
  | n :: _ => some n
  | [] => (u.records.find? (fun r => r.interest == 0)).map PeerRecord.station

/-- The Peer Table without a station's record, and the loss list without the station (R55). -/
def PeerUnit.dropRecord (u : PeerUnit) (n : Station) : PeerUnit :=
  { u with
    records := tableErase (fun r => r.station.toNat) n.toNat u.records
    lossList := u.lossList.filter (fun m => m != n) }

/-- A record reclaimed: its entries are removed, its timers go with it, an own ASK to it is disowned (R55, R78). -/
def State.reclaimRecord (s : State) (n : Station) : State :=
  ((s.setPoints (s.points.removeAll n)).setPeers (s.peers.dropRecord n)).disown n

/-- The state with room for a new record, or none when no record can be reclaimed (R55, R56). -/
def State.makeRoom (s : State) : Option State :=
  if s.peers.records.length < 32 then some s else s.peers.reclaimStation?.map s.reclaimRecord

/-- A frame that gets no record (R56). -/
def State.peerOverflow (s : State) (n : Station) : State :=
  (s.setFaults { s.control.faults with peerOverflow := true }).offer (.peer .overflow n)

/-! ### Steps 2 and 3: a new record, a new epoch (R57, R58) -/

/-- Whether a frame is a HELLO. -/
def Frame.isHello (f : Frame) : Bool := f.body.kind == .hello

/-- The recall state and expected sequence that a new record and a new epoch take from the frame's kind: a HELLO
leaves nothing needed and expects 0; any other kind needs all of I(S) and asks for a BEACON (R57, R58, R73). -/
def PeerRecord.freshStart (r : PeerRecord) (hello : Bool) : PeerRecord :=
  if hello then { r with state := .live, need := 0, askDue := false, beaconWanted := false, expected := some 0 }
  else if r.interest = 0 then
    { r with state := .live, need := 0, askDue := false, beaconWanted := false, expected := none }
  else { r with state := .recovering, need := r.interest, askDue := true, beaconWanted := true, expected := none }

/-- The record of R50 at creation, before the frame's kind changes it. -/
def State.blankRecord (s : State) (f : Frame) : PeerRecord where
  station := f.sender
  state := .live
  epoch := f.epoch
  expected := none
  published := none
  period := none
  interest := interestSet s.notices.windows s.control.station f.sender
  need := 0
  covered := 0
  askDue := false
  beaconWanted := false
  attempts := 0
  silence := .stopped
  recallWait := .stopped

/-- Step 2: a record is created, with PEER_NEW (R57). -/
def State.createRecord (s : State) (f : Frame) : State :=
  (s.setPeers
    { s.peers with
      records := tableInsert (fun r => r.station.toNat) ((s.blankRecord f).freshStart f.isHello) s.peers.records }).offer
    (.peer .new f.sender)

/-- Step 3: the frame's epoch differs from the record's, the peer has restarted (R58). -/
def State.epochChange (s : State) (f : Frame) : State :=
  let s := s.setPoints (s.points.staleAll f.sender)
  let s := s.mapPeer f.sender (fun r =>
    { r.clearRecall with epoch := f.epoch, published := none }.freshStart f.isHello)
  let s := s.setPeers { s.peers with lossList := s.peers.lossList.filter (fun m => m != f.sender) }
  (s.disown f.sender).offer (.peer .restarted f.sender)

/-- Step 3 at an existing record. -/
def State.checkEpoch (s : State) (r : PeerRecord) (f : Frame) : State :=
  if r.epoch = f.epoch then s else s.epochChange f

/-! ### Step 4: silence timer and return (R59) -/

/-- The silence limit, three of the peer's beacon periods, in CLKIN periods: of the period that the record holds
after this frame (R59). -/
def PeerRecord.silenceFull (r : PeerRecord) (f : Frame) (t : Timing) : Nat :=
  msPeriods (3 * { r with period := f.body.period.or r.period }.periodMs t)

/-- The silence timer restarted for the silence limit. -/
def PeerRecord.heard (r : PeerRecord) (f : Frame) (t : Timing) : PeerRecord :=
  { r with silence := .running .silence (r.silenceFull f t) }

/-- A SILENT or LOST record returned, with its return need (R59, R73). -/
def PeerRecord.returned (r : PeerRecord) : PeerRecord :=
  { r with
    attempts := 0
    covered := 0
    need := r.bounded
    askDue := r.bounded != 0
    state := if r.bounded = 0 then .live else .recovering }

/-- Whether a record is SILENT or LOST. -/
def PeerRecord.isAway (r : PeerRecord) : Bool := r.state == .silent || r.state == .lost

/-- Step 4. -/
def State.hear (s : State) (f : Frame) : State :=
  let away := ((s.peers.find? f.sender).map PeerRecord.isAway).getD false
  let s := s.mapPeer f.sender (fun r => (if r.isAway then r.returned else r).heard f s.control.timing)
  let s := s.setPeers { s.peers with lossList := s.peers.lossList.filter (fun m => m != f.sender) }
  if away then s.offer (.peer .back f.sender) else s

/-! ### Step 5: sequence, gap, beacon (R60 to R62) -/

/-- What a gap does at a record; `next` is the sequence expected from now on (R60, R73). -/
def PeerRecord.gapTaken (r : PeerRecord) (next : Byte) : PeerRecord :=
  let need := r.need ||| r.bounded
  { r with
    need := need
    state := if need = 0 then r.state else .recovering
    askDue := r.askDue || (r.need == 0 && need != 0)
    expected := some next }

/-- A sequence gap, with PEER_GAP (R60). -/
def State.takeGap (s : State) (n : Station) (next : Byte) : State :=
  ((s.setPoints (s.points.suspectAll n)).mapPeer n (fun r => r.gapTaken next)).offer (.peer .gap n)

/-- The sequence check: `carried` is compared with what the record expects, and `next` is expected from now on
(R60, R61). -/
def State.checkSequence (s : State) (n : Station) (carried next : Byte) : State :=
  match (s.peers.find? n).bind PeerRecord.expected with
  | none => s.mapPeer n (fun r => { r with expected := some next })
  | some e => if e = carried then s.mapPeer n (fun r => { r with expected := some next }) else s.takeGap n next

/-- A BEACON's period and published index set, and the trimming of the need (R61, R86). -/
def State.takeBeacon (s : State) (n : Station) (period : Byte) (published : IndexSet) : State :=
  match s.peers.find? n with
  | none => s
  | some r =>
    (s.setPoints (s.points.staleThese n (IndexSet.diff r.need published))).mapPeer n (fun r =>
      { r with period := some period, published := some published, need := r.need &&& published, beaconWanted := false })

/-- Step 5 up to the gap: the sequence of an UPDATE or a BEACON. -/
def State.sequenceStep (s : State) (f : Frame) : State :=
  match f.body with
  | .update sequence _ => s.checkSequence f.sender sequence (sequence + 1)
  | .beacon next _ _ => s.checkSequence f.sender next next
  | .hello _ => s
  | .ask _ _ _ _ => s
  | .resend _ => s

/-- Step 5 after the gap: a BEACON's contents, a HELLO's beacon period. -/
def State.contentsStep (s : State) (f : Frame) : State :=
  match f.body with
  | .beacon _ period published => s.takeBeacon f.sender period published
  | .hello period => s.mapPeer f.sender (fun r => { r with period := some period })
  | .update _ _ => s
  | .ask _ _ _ _ => s
  | .resend _ => s

/-! ### Step 6: items (R63) -/

/-- How a frame's items are judged (R10). -/
def FrameBody.carrier (b : FrameBody) : Carrier := if b.kind = .resend then .resend else .update

/-- One item handed to the point table; its index then leaves the need (R63). -/
def State.handOver (s : State) (n : Station) (carrier : Carrier) (i : Item) : State :=
  let interest := ((s.peers.find? n).map PeerRecord.interest).getD 0
  (s.takeItem n interest carrier i).mapPeer n (fun r => { r with need := IndexSet.erase r.need i.index })

/-- Step 6: the items in body order (R10). That no read or other claim is taken between two of them, nor between them and
the bulk change before them, is the model's choice (log 31). -/
def State.itemsStep (s : State) (f : Frame) : State :=
  f.body.items.foldl (fun s i => s.handOver f.sender f.body.carrier i) s

/-! ### Step 7 and the test of R80 -/

/-- Step 7: a RECOVERING record whose need is empty is recovered (R64). -/
def State.recoveryStep (s : State) (n : Station) : State :=
  match s.peers.find? n with
  | some r => if r.state = .recovering ∧ r.need = 0 then s.recoveryComplete n else s
  | none => s

/-- The recall need of a station's record. -/
def PeerUnit.needOf (u : PeerUnit) (n : Station) : IndexSet := ((u.find? n).map PeerRecord.need).getD 0

/-- The test of R80 at the end of a classification that removed indexes from the need. -/
def State.metStep (s : State) (n : Station) (before : IndexSet) : State :=
  if IndexSet.diff before (s.peers.needOf n) != 0 then s.testMet n else s

/-- Steps 4 to 7 at the sender's record. -/
def State.classifyRecord (s : State) (f : Frame) : State :=
  let s5 := (s.hear f).sequenceStep f
  let s7 := ((s5.contentsStep f).itemsStep f).recoveryStep f.sender
  s7.metStep f.sender (s5.peers.needOf f.sender)

/-- The classification of one good frame (R54). -/
def State.classify (s : State) (f : Frame) : State :=
  match s.peers.find? f.sender with
  | some r => ((s.checkEpoch r f).classifyRecord f).judgeAsk
  | none =>
    match s.makeRoom with
    | some s' => ((s'.createRecord f).classifyRecord f).judgeAsk
    | none => s.peerOverflow f.sender

/-- The peer unit's event at a good frame: the classification, then the merge of an ASK whose target is another
station (R54, R79, R126). -/
def State.peerEvent (s : State) (f : Frame) : State :=
  match f.body with
  | .ask target _ _ asked =>
    let s' := s.classify f
    if s.isOwn target then s' else s'.mergeAsk target asked
  | .update _ _ => s.classify f
  | .hello _ => s.classify f
  | .beacon _ _ _ => s.classify f
  | .resend _ => s.classify f

end Sys2Proof.Machine
end

