-- ==== Sys2Proof/Machine/Publishing.lean ====
section
/-! DEFINITION. Machine/Publishing.lean: the publication unit (file 02; replay in file 04): the Publish Set, rounds
and wants, the contents of UPDATE, BEACON and RESEND frames and their outcomes. -/

namespace Sys2Proof.Machine

open Sys2Proof

/-! ### Wants of the publication unit -/

/-- Whether the Publish Set holds an urgent member (R33). -/
def State.urgentWaiting (s : State) : Bool := s.publication.publishSet.any s.points.urgent

/-- Whether a round is open (R32). -/
def Round.isOpen : Round → Bool
  | .opened _ => true
  | .closed => false

/-- The ROUTINE UPDATE want is raised while a round is open and the Publish Set is not empty (R32). -/
def State.judgeRoutine (s : State) : State :=
  s.setWant .routine (s.publication.round.isOpen && !s.publication.publishSet.isEmpty)

/-- The ALARM UPDATE want after an outcome: raised exactly if an urgent member waits (R33). -/
def State.judgeAlarm (s : State) : State := s.setWant .alarm s.urgentWaiting

/-- The ALARM UPDATE want at the start of an own UPDATE: lowered if no urgent member remains (R33). -/
def State.lowerAlarmIfNone (s : State) : State := if s.urgentWaiting then s else s.setWant .alarm false

/-- The RESEND want is raised while the Replay Set is not empty and no own RESEND is in flight (R91). -/
def State.judgeResend (s : State) : State :=
  s.setWant .resend (s.publication.replay != 0 && s.publication.resendFlight.isEmpty)

/-! ### Writes and timers -/

/-- The Publish Set with an index appended unless it is a member (R29). -/
def appendIndex (l : List Index) (i : Index) : List Index := if l.contains i then l else l ++ [i]

/-- An accepted WRITE_POINT (R29). -/
def State.writeOwn (s : State) (i : Index) (value : List Byte) : State :=
  let s := s.setPoints (s.points.mapOwn i (fun e => { e with current := value }))
  let s := s.setPublication { s.publication with publishSet := appendIndex s.publication.publishSet i }
  let s := if s.points.urgent i then s.setWant .alarm true else s
  s.judgeRoutine

/-- The publication unit's part of a publish timer expiry: a round opens if the set is not empty and none is
open (R31). -/
def State.publishExpiry (s : State) : State :=
  if s.publication.publishSet.isEmpty || s.publication.round.isOpen then s
  else (s.setPublication { s.publication with round := .opened 0 }).setWant .routine true

/-- The beacon timer restarts with a full beacon period (R44). -/
def State.restartBeacon (s : State) : State :=
  s.setPublication { s.publication with beaconTimer := s.control.timing.beaconFull }

/-- A request for a BEACON (R45). -/
def State.raiseBeacon (s : State) : State := s.setWant .beacon true

/-! ### Contents at the start -/

/-- The longest run from the head whose bytes, with those already used, stay within a limit; the first that
would not fit ends it (R34, R35, R92). -/
def fitting (limit used : Nat) : List Item → List Item
  | [] => []
  | i :: rest =>
    if used + i.size.itemBytes ≤ limit then i :: fitting limit (used + i.size.itemBytes) rest else []

/-- The items that a list of own indexes would carry in an UPDATE (R36). -/
def State.snapshots (s : State) (l : List Index) : List Item :=
  l.filterMap (fun i => (s.points.own? i).map OwnEntry.snapshot)

/-- The items of a ROUTINE UPDATE: from the head of the set, 29 bytes at most (R34). -/
def State.routineItems (s : State) : List Item := fitting 29 0 (s.snapshots s.publication.publishSet)

/-- The items of an ALARM UPDATE: the urgent members in set order, 29 bytes at most (R35). -/
def State.alarmItems (s : State) : List Item :=
  fitting 29 0 (s.snapshots (s.publication.publishSet.filter s.points.urgent))

/-- The frame of an UPDATE with given items (R36). -/
def State.updateFrame (s : State) (alarm : Bool) (items : List Item) : Frame :=
  ⟨alarm, s.ownNumber, s.control.epoch, .update s.publication.sequence items⟩

/-- The start of an UPDATE: the carried indexes leave the set for the in-flight list, and the wants are judged
(R30, R32, R33, R37). Declined when there is no item (R152). -/
def State.startUpdate (s : State) (alarm : Bool) (items : List Item) : Option (Frame × State) :=
  if items.isEmpty then none
  else
    let carried := items.map Item.index
    let s' := s.setPublication
      { s.publication with
        publishSet := s.publication.publishSet.filter (fun i => !carried.contains i)
        flight := some ⟨alarm, s.publication.sequence, items⟩ }
    some (s.updateFrame alarm items, s'.judgeRoutine.lowerAlarmIfNone)

/-- The frame of a BEACON (R46). -/
def State.beaconFrame (s : State) : Frame :=
  ⟨false, s.ownNumber, s.control.epoch,
   .beacon s.publication.sequence s.control.timing.beaconUnits s.publication.published⟩

/-- The items of a RESEND: Replay Set members in ascending order with their published values, 30 bytes at most
(R92). -/
def State.resendItems (s : State) : List Item :=
  fitting 30 0 ((IndexSet.members s.publication.replay).filterMap (fun i => (s.points.own? i).bind OwnEntry.replayItem))

/-- The start of a RESEND: the taken indexes leave the Replay Set for the in-flight list (R92). -/
def State.startResend (s : State) : Option (Frame × State) :=
  let items := s.resendItems
  if items.isEmpty then none
  else
    let carried := items.map Item.index
    let s' := s.setPublication
      { s.publication with
        replay := IndexSet.diff s.publication.replay (IndexSet.ofList carried)
        resendFlight := carried }
    some (⟨false, s.ownNumber, s.control.epoch, .resend items⟩, s'.judgeResend)

/-! ### Outcomes -/

/-- The round after an UPDATE completes (R32). -/
def Round.afterCompletion (r : Round) (alarm : Bool) (setEmpty : Bool) : Round :=
  match r with
  | .closed => .closed
  | .opened n =>
    if setEmpty then .closed
    else if alarm then .opened n
    else if n < 3 then .opened (n + 1) else .closed

/-- The completion of an own UPDATE (R38). -/
def State.completeUpdate (s : State) : State :=
  match s.publication.flight with
  | none => s
  | some f =>
    let carried := IndexSet.ofList (f.items.map Item.index)
    let s := s.setPoints (s.points.publish f.items)
    let s := s.setPublication
      { s.publication with
        replay := IndexSet.diff s.publication.replay carried
        published := s.publication.published ||| carried
        sequence := s.publication.sequence + 1
        beaconTimer := s.control.timing.beaconFull
        flight := none
        round := s.publication.round.afterCompletion f.alarm s.publication.publishSet.isEmpty }
    s.judgeResend.judgeRoutine.judgeAlarm

/-- An own UPDATE lost or failed: its indexes return to the head, in carried order, and nothing is consumed
(R39). -/
def State.returnUpdate (s : State) : State :=
  match s.publication.flight with
  | none => s
  | some f =>
    let carried := f.items.map Item.index
    let s := s.setPublication
      { s.publication with
        publishSet := carried ++ s.publication.publishSet.filter (fun i => !carried.contains i)
        flight := none }
    s.judgeRoutine.judgeAlarm

/-- The completion of an own BEACON: the want is lowered and the beacon timer restarts (R44, R45). -/
def State.completeBeacon (s : State) : State := (s.setWant .beacon false).restartBeacon

/-- The completion of an own RESEND (R93). -/
def State.completeResend (s : State) : State :=
  (s.setPublication { s.publication with resendFlight := [] }).judgeResend

/-- An own RESEND lost or failed: its indexes return to the Replay Set (R93). -/
def State.returnResend (s : State) : State :=
  (s.setPublication
    { s.publication with
      replay := s.publication.replay ||| IndexSet.ofList s.publication.resendFlight
      resendFlight := [] }).judgeResend

/-! ### Replay requests (R89) -/

/-- The publication unit takes an ASK addressed to this station. -/
def State.takeRequest (s : State) (beaconWanted : Bool) (believed : Byte) (asked : IndexSet) : State :=
  let added := IndexSet.diff (asked &&& s.publication.published) (IndexSet.ofList s.publication.resendFlight)
  let s := (s.setPublication { s.publication with replay := s.publication.replay ||| added }).judgeResend
  if beaconWanted || believed != s.control.epoch then s.raiseBeacon else s

/-! ### COMMIT, restart, LISTENING, REJOIN (R28, R47, R48) -/

/-- The publication unit's values at COMMIT and at warm restart (R28, R48). -/
def Publication.fresh (declared : List Index) : Publication := { Publication.reset with publishSet := declared }

/-- Entry to LISTENING holds the publish and beacon timers (R47). -/
def Publication.hold (p : Publication) : Publication :=
  { p with publishTimer := p.publishTimer.hold, beaconTimer := p.beaconTimer.hold }

/-- The exit from LISTENING(LINE_TROUBLE) resumes them (R47). -/
def Publication.resume (p : Publication) : Publication :=
  { p with publishTimer := p.publishTimer.resume, beaconTimer := p.beaconTimer.resume }

/-- REJOIN drops the held timers and closes the round (R47). -/
def Publication.rejoin (p : Publication) : Publication :=
  { p with publishTimer := .stopped, beaconTimer := .stopped, round := .closed }

/-- Both timers start with full periods, and the publication unit takes one publish timer expiry (R31, R167). -/
def State.startPublishing (s : State) : State :=
  (s.setPublication
    { s.publication with
      publishTimer := s.control.timing.publishFull
      beaconTimer := s.control.timing.beaconFull }).publishExpiry

end Sys2Proof.Machine
end

