-- ==== Sys2Proof/Machine/Station.lean ====
section
/-! DEFINITION. Machine/Station.lean: station control (file 09): entry to LISTENING, the exit from
LISTENING(LINE_TROUBLE), duplicate detection, the hello hold, the join, and the dispatch of good frames (file 06). -/

namespace Sys2Proof.Machine

open Sys2Proof

/-- The station enters a state and announces it (R163). -/
def State.enter (s : State) (st : StationState) : State :=
  (s.setControl { s.control with state := st }).offerState

/-- Entry to LISTENING: every block's part of R171; a pending withdraw is met by it (R157, R170). -/
def State.enterListening (s : State) (cause : Cause) : State :=
  let s := s.setControl
    { s.control with
      joinTimer := s.control.joinTimer.hold
      helloHold := .stopped
      lineTroubleCount := 0
      withdrawPending := false }
  let s := s.setPublication s.publication.hold
  let s := s.setPeers (s.peers.mapWaits Timer.hold)
  let s := s.setArbiter { s.arbiter with failures := 0 }
  s.enter (.listening cause)

/-- A duplicate-station detection (R173). -/
def State.duplicateDetected (s : State) : State :=
  let s := s.setFaults { s.control.faults with duplicate := true }
  match s.control.state with
  | .joining => s.enterListening .duplicate
  | .inService => s.enterListening .duplicate
  | .listening .command => (s.setControl { s.control with lineTroubleCount := 0 }).enter (.listening .duplicate)
  | .listening .lineTrouble => (s.setControl { s.control with lineTroubleCount := 0 }).enter (.listening .duplicate)
  | .listening .duplicate => s
  | .configuring => s

/-- A HELLO that the frame unit dispatches starts or restarts the hello hold (R169). -/
def State.takeHello (s : State) : State :=
  if (s.control.state == .joining && s.control.helloDone) || s.control.state == .inService then
    s.setControl
      { s.control with
        helloHold := .running (s.ownNumber.toNat * 64 * s.control.timing.rate.cellPeriods) }
  else s

/-- The exit from LISTENING(LINE_TROUBLE) (R172). -/
def State.troubleExit (s : State) : State :=
  let windowOpen := s.control.joinTimer.isHeld || !s.control.helloDone
  let done := s.control.helloDone
  let s := s.setControl { s.control with lineTroubleCount := 0, joinTimer := .stopped, helloDone := true }
  let s := s.setPublication s.publication.resume
  let s := s.setPeers (s.peers.mapWaits Timer.resume)
  let s := if done then s else s.startPublishing
  let s := if windowOpen then s.joinRecall else s
  s.raiseBeacon.enter .inService

/-- The good-frame report, counted in LISTENING(LINE_TROUBLE) alone; the 32nd takes the exit (R126, R172). -/
def State.goodFrameReport (s : State) : State :=
  if s.control.state = .listening .lineTrouble then
    if s.control.lineTroubleCount + 1 < 32 then
      s.setControl { s.control with lineTroubleCount := s.control.lineTroubleCount + 1 }
    else s.troubleExit
  else s

/-- Station control's event at a good frame: the HELLO, then the report (R126, R127; log 22). -/
def State.controlEvent (s : State) (f : Frame) : State :=
  (if f.isHello then s.takeHello else s).goodFrameReport

/-- The publication unit's event at a good frame: an ASK addressed to this station (R89, R126). -/
def State.publicationEvent (s : State) (f : Frame) : State :=
  match f.body with
  | .ask target beaconWanted believed asked =>
    if s.isOwn target then s.takeRequest beaconWanted believed asked else s
  | .update _ _ => s
  | .hello _ => s
  | .beacon _ _ _ => s
  | .resend _ => s

/-- Whether the next good-frame report is the one that takes the exit of R172. -/
def State.atExit (s : State) : Bool :=
  s.control.state == .listening .lineTrouble && 32 ≤ s.control.lineTroubleCount + 1

/-- The dispatch of a good frame from another station (R126). The blocks stand in no order (R127): which of the
peer unit and station control comes first shows only at the exit, and is then a free value (log 13). That the notices of
one block stay together there is the model's choice (log 34). -/
def State.dispatchGood (s : State) (f : Frame) : State :=
  let s' :=
    if s.atExit then
      if Config.controlFirst s.freeCount then ((s.bumpFree.controlEvent f).peerEvent f)
      else ((s.bumpFree.peerEvent f).controlEvent f)
    else (s.peerEvent f).controlEvent f
  s'.publicationEvent f

/-- The join expiry (R168). -/
def State.joinExpires (s : State) : State :=
  (s.joinRecall.setControl { s.joinRecall.control with joinTimer := .stopped }).enter .inService

/-- The completion of a HELLO: in JOINING it opens the join window and starts the timers, in IN_SERVICE it
restarts the beacon timer (R167). -/
def State.completeHello (s : State) : State :=
  let s := s.setWant .hello false
  if s.control.state = .joining then
    (s.setControl { s.control with helloDone := true, joinTimer := s.control.timing.joinFull }).startPublishing
  else s.restartBeacon

/-- The frame of a HELLO (R167). -/
def State.helloFrame (s : State) : Frame :=
  ⟨false, s.ownNumber, s.control.epoch, .hello s.control.timing.beaconUnits⟩

/-- COMMIT's third and fourth steps, with which a warm restart also ends: HELLO done mark clear, HELLO want
raised, JOINING (R166, R175). -/
def State.beginJoining (s : State) : State :=
  ((s.setControl { s.control with helloDone := false }).setWant .hello true).enter .joining

end Sys2Proof.Machine
end

