-- ==== Sys2Proof/Machine/Port.lean ====
section
/-! DEFINITION. Machine/Port.lean: the local port's transaction (file 10): the reply, the level of LDO, the edges of
LCLK while a reply is returned, and the meanings of TRANSACTION_OPEN, TRANSACTION_CLOSE and NOTICE_REMOVAL. -/

namespace Sys2Proof.Machine

open Sys2Proof

/-- What a step of this model answers. -/
abbrev Result := Host.Outcome State Fault Refusal

/-- The port after the fall of LSEL: phase CODE, with the first bit of the filler 0xA5 on LDO (R180). -/
def Port.opened : Port := { Port.reset with phase := .code, ldo := some true }

/-- The port after the byte with which a command is taken: WAITING, the reply fixed, nothing of it sent, the last bit of
the filler 0xA5 on LDO (R180, R182). -/
def Port.taken (code : Byte) (args : List Byte) (reply : Reply) : Port where
  phase := .waiting
  code := some code
  args := args
  needed := some args.length
  reply := some reply
  sent := 0
  bits := []
  ldo := some true

/-- The port after a byte with which argument bytes are still missing, the last bit of the filler 0xA5 on LDO (R180,
R181). -/
def Port.collecting (code : Byte) (args : List Byte) (needed : Option Nat) : Port where
  phase := .arguments
  code := some code
  args := args
  needed := needed
  reply := none
  sent := 0
  bits := []
  ldo := some true

/-- The owner acts and returns the reply, which the port fixes (R182). -/
def State.answer (code : Byte) (args : List Byte) (p : Reply × State) : State :=
  p.2.setPort (Port.taken code args p.1)

/-! ### What LDO carries -/

/-- The byte on LDO: filler 0xA5 up to the result, then the result byte, the response bytes, and 0x00; none while
LDO is at high impedance (R180, R182). -/
def Port.ldoByte (p : Port) : Option Byte :=
  match p.phase with
  | .closed => none
  | .code => some 0xA5
  | .arguments => some 0xA5
  | .waiting => some 0xA5
  | .result => (p.reply.map (fun r => r.result.byte))
  | .response => some (((p.reply.map Reply.bytes).getD []).getD p.sent 0)
  | .trailing => some 0x00

/-- The number of response bytes. -/
def Port.responseLength (p : Port) : Nat := ((p.reply.map Reply.bytes).getD []).length

/-- The port with the bit on LDO that the next rising edge of LCLK samples: the byte's most significant bit not yet sent
(R180). -/
def Port.drive (p : Port) : Port := { p with ldo := p.ldoByte.map (fun b => b.getLsbD (7 - p.bits.length)) }

/-- The falling edge before a bit. It begins a byte when no bit of one has been sampled; a byte that begins in WAITING is
the result byte if the owner has returned by then, which is a free value (R182; log 11). -/
def State.lclkFall (s : State) : State :=
  if s.port.phase = .waiting ∧ s.port.bits = [] then
    let p := if Config.resultReady s.freeCount then { s.port with phase := .result } else s.port
    (s.setPort p.drive).bumpFree
  else s.setPort s.port.drive

/-- The port after a whole byte of the reply has been clocked out (R180). -/
def Port.advance (p : Port) : Port :=
  match p.phase with
  | .result => if p.responseLength = 0 then { p with phase := .trailing } else { p with phase := .response }
  | .response =>
    if p.sent + 1 < p.responseLength then { p with sent := p.sent + 1 }
    else { p with phase := .trailing, sent := p.responseLength }
  | .closed => p
  | .code => p
  | .arguments => p
  | .waiting => p
  | .trailing => p

/-- Whether a reply is being waited for or sent. -/
def Port.replying (p : Port) : Bool := p.phase == .waiting || p.phase == .result || p.phase == .response

/-- Whether the next bit is the last of an accepted TAKE_NOTICE's response. Its rising edge is NOTICE_REMOVAL (R109;
log 12). -/
def Port.atRemoval (p : Port) : Bool :=
  p.phase == .response && p.code == some PortCommand.takeNotice.code && p.bits.length == 7 &&
    decide (p.responseLength ≤ p.sent + 1)

/-! ### TRANSACTION_OPEN, TRANSACTION_CLOSE, NOTICE_REMOVAL -/

/-- TRANSACTION_OPEN: the fall of LSEL opens a transaction in phase CODE (R180). -/
def execTransactionOpen (s : State) : Result :=
  .next (if s.port.phase = .closed then s.setPort Port.opened else s)

/-- TRANSACTION_CLOSE: the rise of LSEL closes the transaction at whatever phase it has reached, and a byte cut short by
it is not complete. A command not yet taken is abandoned, one that was taken keeps its effect, and a head record still
being taken stays, its being-taken mark cleared (R109, R183). The reply and the bytes are dropped (log 25). That the
changed mark is cleared with the being-taken mark is the model's choice (log 29). -/
def execTransactionClose (s : State) : Result :=
  .next ((s.setPort Port.reset).setNotices { s.notices with mark := .none })

/-- The port after the last response byte, with that byte's last bit on LDO (R180). -/
def Port.clockedOut (p : Port) : Port :=
  { p with
    phase := .trailing
    sent := p.responseLength
    bits := []
    ldo := some ((((p.reply.map Reply.bytes).getD []).getLastD 0).getLsbD 0) }

/-- NOTICE_REMOVAL: the last response byte of a TAKE_NOTICE has been clocked out; the head record is removed unless
it is marked changed (R107, R109, R110), and the port goes on to TRAILING (R180; log 12). -/
def execNoticeRemoval (s : State) : Result :=
  .next
    (if s.notices.mark = .none then s
    else (s.setNotices (s.notices.finishTake s.control.clock)).setPort s.port.clockedOut)

end Sys2Proof.Machine
end

