-- ==== Sys2Proof/Machine/Transmit.lean ====
section
/-! DEFINITION. Machine/Transmit.lean: the transmit arbiter (file 08): the choice of a want, the start, the outcomes. -/

namespace Sys2Proof.Machine

open Sys2Proof

/-- The wants in the order of their leads (R149). -/
def wantOrder : List Want := [.alarm, .hello, .ask, .routine, .beacon, .resend]

/-- Whether the station may start a frame now (R150). -/
def State.mayTransmit (s : State) : Bool :=
  (s.control.state == .joining || s.control.state == .inService) && !s.control.withdrawPending &&
    s.line.condition == .idle && s.arbiter.inFlight.isNone

/-- Whether a want is offered: before the HELLO has completed in JOINING, HELLO alone (R150). -/
def State.offered (s : State) (w : Want) : Bool :=
  w == .hello || s.control.state == .inService || s.control.helloDone

/-- The owner of a want supplies a frame and takes what the start takes, or declines (R151, R152). -/
def State.contents (s : State) : Want → Option (Frame × State)
  | .alarm => s.startUpdate true s.alarmItems
  | .hello => some (s.helloFrame, s)
  | .ask => s.startAsk
  | .routine => s.startUpdate false s.routineItems
  | .beacon => some (s.beaconFrame, s)
  | .resend => s.startResend

/-- The frame is marked in flight and handed to the line interface, which sends its cells (R133, R151). The falling
edge that its first low makes on the line is a LINE_BUSY of its own: a driver that cannot pull the line low makes none
(R140; log 8). -/
def State.launch (s : State) (w : Want) (f : Frame) : State :=
  let s := s.setArbiter { s.arbiter with inFlight := some w }
  s.setLine { s.line with drive := .sending f.toWire }

/-- The wants asked in turn: the first that is raised, offered and not declined is started; a declined want is
lowered (R151, R152). -/
def State.startFirst (s : State) : List Want → State
  | [] => s
  | w :: rest =>
    if s.arbiter.wants.raised w && s.offered w then
      match s.contents w with
      | some (f, s') => s'.launch w f
      | none => (s.setWant w false).startFirst rest
    else s.startFirst rest

/-- The start (R151). -/
def State.start (s : State) : State := if s.mayTransmit then s.startFirst wantOrder else s

/-! ### Outcomes -/

/-- The flight ends: the marker is cleared and nothing is driven (R153). -/
def State.land (s : State) : State :=
  (s.setArbiter { s.arbiter with inFlight := none }).setLine { s.line with drive := .idle }

/-- The owner takes COMPLETED (R154). -/
def State.ownerCompleted (s : State) : Want → State
  | .alarm => s.completeUpdate
  | .hello => s.completeHello
  | .ask => s.completeAsk
  | .routine => s.completeUpdate
  | .beacon => s.completeBeacon
  | .resend => s.completeResend

/-- The owner takes LOST or FAILED: it undoes the start and the want stays raised (R155, R156). -/
def State.ownerReturned (s : State) : Want → State
  | .alarm => s.returnUpdate
  | .hello => s
  | .ask => s.returnAsk
  | .routine => s.returnUpdate
  | .beacon => s
  | .resend => s.returnResend

/-- The report of the end of the flight: a pending withdraw is carried out (R158, R170). -/
def State.endFlight (s : State) : State := if s.control.withdrawPending then s.enterListening .command else s

/-- COMPLETED at the arbiter (R154, R157). -/
def State.takeCompleted (s : State) (w : Want) : State :=
  let s := s.land
  let s := s.setArbiter { s.arbiter with failures := 0 }
  (s.ownerCompleted w).endFlight

/-- LOST at the arbiter (R155). -/
def State.takeLost (s : State) (w : Want) : State :=
  let s := s.land
  let s := s.setArbiter { s.arbiter with arbLost := Tally.rise s.arbiter.arbLost }
  (s.ownerReturned w).endFlight

/-- The eighth consecutive FAILED: LINE_TROUBLE (R157). -/
def State.lineTrouble (s : State) : State :=
  (s.setFaults { s.control.faults with lineTrouble := true }).enterListening .lineTrouble

/-- FAILED at the arbiter (R156, R157). -/
def State.takeFailed (s : State) (w : Want) : State :=
  let s := s.land
  let s := s.setArbiter
    { s.arbiter with txFail := Tally.rise s.arbiter.txFail, failures := s.arbiter.failures + 1 }
  let s := s.ownerReturned w
  if 8 ≤ s.arbiter.failures then s.lineTrouble else s.endFlight

end Sys2Proof.Machine
end

