-- ==== Sys2Proof/Machine/Line.lean ====
section
/-! DEFINITION. Machine/Line.lean: the meanings of the line's events: LINE_BUSY, LINE_IDLE, LINE_BREAK, BREAK_END,
STUCK, STUCK_END, EARLY_EDGE (file 07), FRAME_END (file 06), TRANSMIT_START, COMPLETED, LOST, BIT_ERROR and FAILED
(files 07 and 08). An event that the state rules out changes nothing (log 3). -/

namespace Sys2Proof.Machine

open Sys2Proof

/-- The assembly buffer with other contents. -/
def State.setAssembly (s : State) (a : Option Assembly) : State := s.setFrame { s.frame with assembly := a }

/-- The line condition changes. -/
def State.setCondition (s : State) (c : LineCondition) : State := s.setLine { s.line with condition := c }

/-- Whether the transmit drive is sending a frame's cells. -/
def Drive.isSending : Drive → Bool
  | .sending _ => true
  | .unheard _ => true
  | .idle => false
  | .breaking => false

/-- Whether it is, and the line has not become free under the frame. -/
def Drive.isHeard : Drive → Bool
  | .sending _ => true
  | .unheard _ => false
  | .idle => false
  | .breaking => false

/-- The drive once the line has become free: a frame that is being sent goes on as unheard, which is the model's reading
of R140 and R141 (log 9). -/
def Drive.freed : Drive → Drive
  | .sending frame => .unheard frame
  | .unheard frame => .unheard frame
  | .idle => .idle
  | .breaking => .breaking

/-! ### The cells of a frame -/

/-- The origin of a frame's cells after one more. After the station has stopped sending, one cell can still be its own:
the low of tBRK begins one, which reads low, and a cell whose low a RESTART breaks off reads high. Any other cell then
is another station's (R135, R140, R146; log 17). -/
def Origin.next (drive : Drive) : Origin → Level → Origin
  | .driven, cell =>
    match drive, cell with
    | .sending _, _ => .driven
    | .unheard _, _ => .foreign
    | .breaking, .low => .ended
    | .breaking, .high => .foreign
    | .idle, .high => .ended
    | .idle, .low => .foreign
  | .ended, _ => .foreign
  | .foreign, _ => .foreign

/-- One sampled cell handed to the frame unit. With the eleventh bit, the last of the arbitration field, the own-frame
mark is set if an own frame is in flight (R124, R135). -/
def Assembly.take (a : Assembly) (inFlight : Bool) (drive : Drive) (cell : Level) : Assembly where
  bits := a.bits ++ [sampledBit cell]
  own := if a.bits.length = 10 then inFlight else a.own
  origin := a.origin.next drive cell

/-- The buffer of a state after cells (R119). -/
def State.cellsTaken (s : State) (a : Assembly) (cells : List Level) : Assembly :=
  cells.foldl (fun a cell => a.take s.arbiter.inFlight.isSome s.line.drive cell) a

/-- Cells before a frame's last check bit, handed over one by one; without a frame under assembly they give no bits
(R135). Cells that would reach the last check bit are FRAME_END's and cannot come here (log 24). -/
def State.takeCells (s : State) (cells : List Level) : State :=
  match s.frame.assembly with
  | none => s
  | some a => if unfinished (s.cellsTaken a cells).bits then s.setAssembly (some (s.cellsTaken a cells)) else s

/-- Whether a frame under assembly is the station's own: by its mark, or before its mark by its cells, all of them begun
by the station itself (R124, R140, R146; log 17). -/
def Assembly.isOwn (a : Assembly) : Bool := a.own || a.origin != .foreign

/-- A frame under assembly is cut: discarded, with the CUT tally unless it is an own frame (R120, R124, R142). -/
def State.cutAssembly (s : State) : State :=
  match s.frame.assembly with
  | none => s
  | some a =>
    s.setFrame { s.frame with assembly := none, cut := if a.isOwn then s.frame.cut else Tally.rise s.frame.cut }

/-- The line has been high for tIDLE: a frame under assembly is cut, the early-edge interval ends, and the line is
free (R137, R142, R143), also under a frame that the own driver still sends without a low (log 9). -/
def State.freeLine (s : State) : State :=
  let s := s.cutAssembly
  s.setLine { s.line with condition := .idle, early := .none, drive := s.line.drive.freed }

/-- LINE_BUSY: the first falling edge on a free line, the station's own or another's, begins an assembly, except in
CONFIGURING, and its cells follow (R119, R131, R135, R137). That a low of the station's own begins an assembly that is
not its own, when it is that of tBRK or comes after the line has become free under its frame, is the model's choice (log
32). -/
def execLineBusy (s : State) (cells : List Level := []) : Result :=
  .next
    (if s.line.condition = .idle then
      let s := s.setCondition .busy
      if s.control.state = .configuring then s
      else (s.setAssembly (some ⟨[], false, if s.line.drive.isHeard then .driven else .foreign⟩)).takeCells cells
    else s)

/-- LINE_IDLE: tIDLE of high, from BUSY or from STUCK (R137). -/
def execLineIdle (s : State) (cells : List Level := []) : Result :=
  .next
    (if s.line.condition = .busy ∨ s.line.condition = .stuck then (s.takeCells cells).freeLine else s)

/-- LINE_BREAK: the 16th cell of a low (R137, R142). -/
def execLineBreak (s : State) (cells : List Level := []) : Result :=
  .next
    (if s.line.condition = .busy then (s.takeCells cells).cutAssembly.setCondition .lowBreak else s)

/-- BREAK_END: the rising edge of a low that has not reached STUCK (R137). -/
def execBreakEnd (s : State) : Result :=
  .next (if s.line.condition = .lowBreak then s.setCondition .busy else s)

/-- STUCK: the 128th cell of the low; station control sets LINE_STUCK (R137, R144). -/
def execStuck (s : State) : Result :=
  .next
    (if s.line.condition = .lowBreak then
      (s.setCondition .stuck).setFaults { s.control.faults with lineStuck := true }
    else s)

/-- STUCK_END: tIDLE of high after STUCK; the flag stays (R137, R144). -/
def execStuckEnd (s : State) : Result := .next (if s.line.condition = .stuck then s.freeLine else s)

/-- EARLY_EDGE: the first falling edge of the interval after a frame's last check bit raises FORMAT once (R143). That it
does so on a STUCK line too, and when it is that of the station's own tBRK, is the model's choice (log 35 and 36). -/
def execEarlyEdge (s : State) : Result :=
  .next
    (if s.line.early = .waiting then
      (s.setLine { s.line with early := .seen }).setFrame { s.frame with format := Tally.rise s.frame.format }
    else s)

/-! ### FRAME_END -/

/-- The frame unit takes a frame as ended at its last check bit: the buffer is empty, and the line must now be high
for tIDLE (R119, R143). -/
def State.finishAssembly (s : State) : State :=
  (s.setAssembly none).setLine { s.line with early := .waiting }

/-- The judgement of a frame from another station: check, validation, then duplicate or dispatch (R121, R122, R125,
R126), with its one tally (R129). -/
def State.judgeFrame (s : State) (w : WireFrame) : State :=
  if checkPasses w then
    match validate w with
    | some f =>
      let s := s.setFrame { s.frame with good := Tally.rise s.frame.good }
      if s.isOwn f.sender then s.duplicateDetected else s.dispatchGood f
    | none => s.setFrame { s.frame with format := Tally.rise s.frame.format }
  else s.setFrame { s.frame with check := Tally.rise s.frame.check }

/-- FRAME_END: the cells up to the last check bit complete the frame in the buffer; an own frame is discarded untested,
another station's is judged as it stands there (R119, R121, R124, R135). -/
def execFrameEnd (cells : List Level) (s : State) : Result :=
  .next
    (match s.frame.assembly with
     | none => s
     | some a =>
       let a := s.cellsTaken a cells
       if finished a.bits then
         if a.own then s.finishAssembly else s.finishAssembly.judgeFrame (wireOfBits a.bits)
       else s)

/-! ### TRANSMIT_START and the outcomes -/

/-- TRANSMIT_START (R151). -/
def execTransmitStart (s : State) : Result := .next s.start

/-- The own frame under assembly, if its end has not been taken yet, has ended with its last check bit (R141; log 9). A
frame whose assembly began after the line had become free is another station's. -/
def State.finishOwn (s : State) : State :=
  if s.line.drive.isHeard && s.frame.assembly.isSome then s.finishAssembly else s

/-- COMPLETED: the last check cell has been released. Whatever the line's condition, every cell has then sampled as sent:
last bits of 0 under another station's low that has become a BREAK, last bits of 1 from a driver that has failed while
the line became free (R139 to R141, R154). -/
def execCompleted (s : State) : Result :=
  .next
    (match s.arbiter.inFlight with
     | some w => if s.line.drive.isSending then s.finishOwn.takeCompleted w else s
     | none => s)

/-- Whether the frame under assembly, if there is one, is still inside its arbitration field (R139). -/
def FrameUnit.inField (u : FrameUnit) : Bool := u.assembly.all (fun a => decide (a.bits.length < 11))

/-- LOST: a 1 sent and a 0 sampled in the arbitration field. The station stops driving, the arbiter takes the report, and
the frame unit then takes the sampled 0 as a bit of the winner's frame (R139, R155). Neither the sixteen low
cells of a BREAK nor the ten high ones of a free line fit into the field, whose kind has a 0 (R115, R137; log 3). -/
def execLost (s : State) : Result :=
  .next
    (match s.arbiter.inFlight with
     | some w => if s.line.drive.isHeard && s.line.condition == .busy && s.frame.inField then (s.takeLost w).takeCells [.low] else s
     | none => s)

/-- BIT_ERROR: the mismatched cell is the frame's last; the line is driven low for tBRK. Cells of another station's frame
may follow where the drive brings no low (R140). -/
def execBitError (s : State) (cells : List Level := []) : Result :=
  .next
    (if s.line.drive.isSending then
      let s := s.takeCells (cells.take 1)
      (s.setLine { s.line with drive := .breaking }).takeCells (cells.drop 1)
    else s)

/-- FAILED: tBRK is released (R140, R156). -/
def execFailed (s : State) : Result :=
  .next
    (match s.arbiter.inFlight with
     | some w => if s.line.drive = .breaking then s.takeFailed w else s
     | none => s)

end Sys2Proof.Machine
end

