-- ==== Sys2Proof/Machine/Timers.lean ====
section
/-! DEFINITION. Machine/Timers.lean: the meanings of the timer expiries and of the millisecond clock's advance. An
expiry acts only at a timer that has run out: one that another event has restarted, stopped or held meanwhile does not
expire (R69, R85; log 3, 4). -/

namespace Sys2Proof.Machine

open Sys2Proof

/-- PUBLISH_TIMER_EXPIRY: the timer reloads the full interval, and a round may open (R31). -/
def execPublishTimerExpiry (s : State) : Result :=
  .next
    (if s.publication.publishTimer.isDue then
      (s.setPublication { s.publication with publishTimer := s.control.timing.publishFull }).publishExpiry
    else s)

/-- BEACON_TIMER_EXPIRY: the BEACON want is raised, and the timer stays stopped until the next completion (R44). -/
def execBeaconTimerExpiry (s : State) : Result :=
  .next
    (if s.publication.beaconTimer.isDue then
      (s.setPublication { s.publication with beaconTimer := .stopped }).raiseBeacon
    else s)

/-- SILENCE_TIMER_EXPIRY of a peer's record: SILENT, or LOST from SILENT (R67, R68). -/
def execSilenceTimerExpiry (peer : Station) (s : State) : Result :=
  .next
    (match s.peers.find? peer with
     | some r => if r.silence.isDue then s.silenceExpires r else s
     | none => s)

/-- RECALL_WAIT_EXPIRY of a peer's record: a further attempt, or recall failure (R83, R84). -/
def execRecallWaitExpiry (peer : Station) (s : State) : Result :=
  .next
    (match s.peers.find? peer with
     | some r => if r.recallWait.isDue then s.recallWaitExpires r else s
     | none => s)

/-- JOIN_EXPIRY: the join recall, then IN_SERVICE (R168). -/
def execJoinExpiry (s : State) : Result :=
  .next (if s.control.joinTimer.isDue then s.joinExpires else s)

/-- HELLO_HOLD_EXPIRY: the timer stops, and the publication unit is asked for a BEACON (R169). -/
def execHelloHoldExpiry (s : State) : Result :=
  .next
    (if s.control.helloHold.isDue then (s.setControl { s.control with helloHold := .stopped }).raiseBeacon
    else s)

/-- MILLISECOND_CLOCK_ADVANCE: the clock advances by one, and each mirrored entry's age is watched (R18, R179). -/
def execMillisecondClockAdvance (s : State) : Result :=
  let clock := s.control.clock + 1
  .next ((s.setControl { s.control with clock := clock }).setPoints
    { s.points with mirrored := s.points.mirrored.map (MirrorEntry.watchAge clock) })

/-! ### One CLKIN period -/

/-- What a step does when no command waits: one CLKIN period passes at every running timer (log 1, 4). -/
def State.idleTick (s : State) : State :=
  let s := s.setControl
    { s.control with joinTimer := s.control.joinTimer.tick, helloHold := s.control.helloHold.tick }
  let s := s.setPublication
    { s.publication with
      publishTimer := s.publication.publishTimer.tick
      beaconTimer := s.publication.beaconTimer.tick }
  s.setPeers
    { s.peers with
      records := s.peers.records.map (fun r =>
        { r with silence := r.silence.tick, recallWait := r.recallWait.tick }) }

end Sys2Proof.Machine
end

