-- ==== Sys2Proof/Machine/Configuration.lean ====
section
/-! DEFINITION. Machine/Configuration.lean: the owners' events of SET_IDENTITY, SET_TIMING, DECLARE_POINT, SET_WINDOW and
COMMIT (R164 to R166, R27, R96, R185). Each action has passed the class check and has its argument bytes. -/

namespace Sys2Proof.Machine

open Sys2Proof

/-- SET_IDENTITY at station control (R164). -/
def setIdentity (args : List Byte) (s : State) : Reply × State :=
  match args with
  | [station, epoch] =>
    match stationArg station with
    | some n => (.ok, s.setControl { s.control with station := some n, epoch := epoch })
    | none => (.refusal .badArgument, s)
  | _ => (.refusal .badArgument, s)

/-- The timing that four codes name; none for a code out of range or a beacon period above 500 ms (R165). -/
def timingArg (rate publish multiple wait : Byte) : Option Timing :=
  match rateArg rate, intervalArg publish, multipleArg multiple, recallWaitArg wait with
  | some r, some p, some m, some w =>
    let t : Timing := ⟨r, p, m, w⟩
    if t.beaconMs ≤ 500 then some t else none
  | _, _, _, _ => none

/-- SET_TIMING at station control (R165). -/
def setTiming (args : List Byte) (s : State) : Reply × State :=
  match args with
  | [rate, publish, multiple, wait] =>
    match timingArg rate publish multiple wait with
    | some t => (.ok, s.setControl { s.control with timing := t })
    | none => (.refusal .badArgument, s)
  | _ => (.refusal .badArgument, s)

/-- The declarations with one added or replaced whole (R27). -/
def PointTable.declare (t : PointTable) (d : Declaration) : PointTable :=
  { t with declarations := tableInsert (fun d => d.index.toNat) d t.declarations }

/-- DECLARE_POINT at the point table (R27). -/
def declarePoint (args : List Byte) (s : State) : Reply × State :=
  match args with
  | index :: size :: urgent :: initial =>
    match indexArg index, flagArg urgent with
    | some i, some u => (.ok, s.setPoints (s.points.declare ⟨i, sizeArg size, u, initial⟩))
    | _, _ => (.refusal .badArgument, s)
  | _ => (.refusal .badArgument, s)

/-- The windows with one replaced whole (R96). -/
def replaceWindow (windows : Vector Window 8) (n : Nat) (w : Window) : Vector Window 8 := windows.setIfInBounds n w

/-- SET_WINDOW at the notice unit (R96). -/
def setWindow (args : List Byte) (s : State) : Reply × State :=
  match args with
  | [window, enabled, baseHigh, baseLow, maskHigh, maskLow, mode] =>
    match flagArg enabled, modeArg mode with
    | some e, some m =>
      if window.toNat ≤ 7 then
        (.ok, s.setNotices
          { s.notices with
            windows := replaceWindow s.notices.windows window.toNat
              ⟨e, packedKeyArg baseHigh baseLow, packedKeyArg maskHigh maskLow, m⟩ })
      else (.refusal .badArgument, s)
    | _, _ => (.refusal .badArgument, s)
  | _ => (.refusal .badArgument, s)

/-- The point table at COMMIT: one own entry for each declaration (R4, R28). -/
def PointTable.commit (t : PointTable) : PointTable := { t with own := t.declarations.map Declaration.toEntry }

/-- COMMIT at every block (R166): own entries and publication values first (R28), every want lowered, then the
HELLO want, JOINING and its STATE notice. -/
def State.commitAll (s : State) : State :=
  let s := s.setPoints s.points.commit
  let s := s.setPublication (Publication.fresh s.points.declared)
  let s := s.setArbiter { s.arbiter with wants := .lowered }
  s.beginJoining

/-- COMMIT at station control: refused while the station number is unset (R166). -/
def commit (_args : List Byte) (s : State) : Reply × State :=
  match s.control.station with
  | none => (.refusal .badConfig, s)
  | some _ => (.ok, s.commitAll)

end Sys2Proof.Machine
end

