-- ==== Sys2Proof/Machine/Reads.lean ====
section
/-! DEFINITION. Machine/Reads.lean: the owners' events of READ_STATUS, READ_POINT, TAKE_NOTICE, READ_PEER, READ_TALLIES and
CLEAR_FAULT (R188 to R190). -/

namespace Sys2Proof.Machine

open Sys2Proof

/-- READ_STATUS (R188). -/
def readStatus (_args : List Byte) (s : State) : Reply × State := (⟨.ok, s.statusBytes⟩, s)

/-- READ_POINT at the point table (R21, R189). -/
def readPoint (args : List Byte) (s : State) : Reply × State :=
  match args with
  | [station, index] =>
    match stationArg station, indexArg index with
    | some n, some i =>
      match s.pointBytes ⟨n, i⟩ with
      | some bytes => (⟨.ok, bytes⟩, s)
      | none => (.refusal .notFound, s)
    | _, _ => (.refusal .badArgument, s)
  | _ => (.refusal .badArgument, s)

/-- TAKE_NOTICE at the notice unit: the response is the head record as it stands, which is marked as being taken
(R108). -/
def takeNotice (_args : List Byte) (s : State) : Reply × State :=
  match s.notices.queue with
  | [] => (.refusal .empty, s)
  | head :: _ => (⟨.ok, head.bytes⟩, s.setNotices { s.notices with mark := .taking })

/-- READ_PEER at the peer unit (R70, R189). -/
def readPeer (args : List Byte) (s : State) : Reply × State :=
  match args with
  | [station] =>
    match stationArg station with
    | some n =>
      match s.peers.find? n with
      | some r => (⟨.ok, r.bytes s.control.timing⟩, s)
      | none => (.refusal .notFound, s)
    | none => (.refusal .badArgument, s)
  | _ => (.refusal .badArgument, s)

/-- The six tallies at 0 (R130, R160). -/
def State.clearTallies (s : State) : State :=
  (s.setFrame { s.frame with good := 0, check := 0, cut := 0, format := 0 }).setArbiter
    { s.arbiter with arbLost := 0, txFail := 0 }

/-- READ_TALLIES: read and cleared as one claim (R130). -/
def readTallies (_args : List Byte) (s : State) : Reply × State := (⟨.ok, s.talliesBytes⟩, s.clearTallies)

/-- CLEAR_FAULT at station control (R178, R190). -/
def clearFault (args : List Byte) (s : State) : Reply × State :=
  match args with
  | [flags] =>
    match faultsArg flags with
    | some named => (.ok, s.setFaults (s.control.faults.cleared named s.keeping))
    | none => (.refusal .badArgument, s)
  | _ => (.refusal .badArgument, s)

end Sys2Proof.Machine
end

