-- ==== Sys2Proof/Machine/Service.lean ====
section
/-! DEFINITION. Machine/Service.lean: the owners' events of the commands taken after COMMIT: WRITE_POINT, RECALL_PEER,
WITHDRAW, REJOIN and RESTART (R29, R88, R170, R174, R175; R186, R187), and the meaning of COLD_RESET (R176). -/

namespace Sys2Proof.Machine

open Sys2Proof

/-- WRITE_POINT: refused for an index that is out of range or not declared (R29, R186). -/
def writePoint (args : List Byte) (s : State) : Reply × State :=
  match args with
  | index :: value =>
    match (indexArg index).bind s.points.own? with
    | some e => (.ok, s.writeOwn e.index value)
    | none => (.refusal .badArgument, s)
  | [] => (.refusal .badArgument, s)

/-- RECALL_PEER (R88, R186). -/
def recallPeer (args : List Byte) (s : State) : Reply × State :=
  match args with
  | [station] =>
    match stationArg station with
    | some n =>
      match s.peers.find? n with
      | some r => if r.state = .lost then (.refusal .badState, s) else (.ok, s.forceRecall r)
      | none => (.refusal .notFound, s)
    | none => (.refusal .badArgument, s)
  | _ => (.refusal .badArgument, s)

/-- An accepted WITHDRAW: pending while an own frame is in flight, at once otherwise (R170). -/
def State.withdrawNow (s : State) : State :=
  if s.arbiter.inFlight.isSome then s.setControl { s.control with withdrawPending := true }
  else s.enterListening .command

/-- WITHDRAW: taken in JOINING and IN_SERVICE (R170, R187). -/
def withdraw (_args : List Byte) (s : State) : Reply × State :=
  match s.control.state with
  | .joining => (.ok, s.withdrawNow)
  | .inService => (.ok, s.withdrawNow)
  | .configuring => (.refusal .badState, s)
  | .listening _ => (.refusal .badState, s)

/-- An accepted REJOIN (R174). -/
def State.rejoinNow (s : State) : State :=
  let s := s.setPublication s.publication.rejoin
  let s := s.setWant .routine false
  let s := s.setPeers (s.peers.mapWaits Timer.drop)
  let s := s.setControl { s.control with joinTimer := .stopped, lineTroubleCount := 0 }
  let s := s.setArbiter { s.arbiter with failures := 0 }
  s.beginJoining

/-- REJOIN: taken in LISTENING for any cause (R174, R187). -/
def rejoin (_args : List Byte) (s : State) : Reply × State :=
  match s.control.state with
  | .listening _ => (.ok, s.rejoinNow)
  | .configuring => (.refusal .badState, s)
  | .joining => (.refusal .badState, s)
  | .inService => (.refusal .badState, s)

/-- The fault flags after a warm restart: clear, but LINE_STUCK is kept while the condition is STUCK (R144, R175). -/
def State.restartFaults (s : State) : FaultFlags :=
  { FaultFlags.clear with lineStuck := s.control.faults.lineStuck && s.line.condition == .stuck }

/-- Station control at a warm restart (R175). -/
def State.restartControl (s : State) : Control :=
  { s.control with
    epoch := s.control.epoch + 1
    faults := s.restartFaults
    joinTimer := .stopped
    helloHold := .stopped
    withdrawPending := false
    lineTroubleCount := 0 }

/-- The frame unit at a warm restart: tallies 0; an own frame under assembly is discarded with no tally, any other
kept, one whose arbitration field has not ended among them, since it may be another station's too (R131, R146). -/
def FrameUnit.restart (u : FrameUnit) : FrameUnit :=
  { FrameUnit.reset with assembly := u.assembly.filter (fun a => !a.own) }

/-- The point table at a warm restart (R8). -/
def PointTable.restart (t : PointTable) : PointTable :=
  { t with mirrored := [], own := t.own.map (fun e => { e with published := none }) }

/-- The notice unit at a warm restart: emptied, the windows kept (R112). -/
def NoticeUnit.restart (u : NoticeUnit) : NoticeUnit := { NoticeUnit.reset with windows := u.windows }

/-- An accepted RESTART: every block takes its restart values as one event, and the station begins to join
(R175). -/
def State.restartAll (s : State) : State :=
  let s := s.setControl s.restartControl
  let s := s.setArbiter Arbiter.reset
  let s := s.setLine { s.line with drive := .idle }
  let s := s.setFrame s.frame.restart
  let s := s.setPoints s.points.restart
  let s := s.setPublication (Publication.fresh s.points.declared)
  let s := s.setPeers PeerUnit.reset
  let s := s.setNotices s.notices.restart
  s.beginJoining

/-- RESTART: its class is after COMMIT, and it is taken in every state of that class (R175, R187). -/
def restart (_args : List Byte) (s : State) : Reply × State := (.ok, s.restartAll)

/-- COLD_RESET: every block returns to its default (R147, R176). The queue and the free-value counter, which are
the model's own, are kept (log 15, 19). -/
def execColdReset (s : State) : Result :=
  .next { State.reset with freeCount := s.freeCount, pending := s.pending }

end Sys2Proof.Machine
end

