-- ==== Sys2Proof/Machine/Transaction.lean ====
section
/-! DEFINITION. Machine/Transaction.lean: the clocking of a transaction bit by bit (R180 to R184, R195): the bytes that
LDI gives, the code byte that picks the command, the collection of its argument bytes, the take; and the meanings of
the sixteen commands and of BAD_COMMAND, each of which carries LDI bits of its transaction. -/

namespace Sys2Proof.Machine

open Sys2Proof

/-- The owner's event of each command, with its argument bytes (R182, R184). -/
def State.perform (s : State) (args : List Byte) : PortCommand → Reply × State
  | .readStatus => readStatus args s
  | .readPoint => readPoint args s
  | .takeNotice => takeNotice args s
  | .readPeer => readPeer args s
  | .readTallies => readTallies args s
  | .clearFault => clearFault args s
  | .setIdentity => setIdentity args s
  | .setTiming => setTiming args s
  | .declarePoint => declarePoint args s
  | .setWindow => setWindow args s
  | .commit => commit args s
  | .writePoint => writePoint args s
  | .recallPeer => recallPeer args s
  | .withdraw => withdraw args s
  | .rejoin => rejoin args s
  | .restart => restart args s

/-! ### Whole bytes -/

/-- The command is taken when its last argument byte is complete, and waits for more before (R181, R182). That its owner
takes it at the rising edge that completes that byte, with no other event between, is the model's choice (log 33). -/
def State.collect (s : State) (c : PortCommand) (args : List Byte) : State :=
  match argCount s.points c args with
  | none => s.setPort (Port.collecting c.code args none)
  | some n =>
    if args.length < n then s.setPort (Port.collecting c.code args (some n))
    else State.answer c.code (args.take n) (s.perform (args.take n) c)

/-- A complete code byte picks its command by the table of code bytes (R195). A code without a row is BAD_COMMAND and a
command outside its class BAD_STATE, both taken at once; any other command collects its argument bytes (R181, R184). -/
def State.takeCode (s : State) (code : Byte) : State :=
  match PortCommand.ofCode code with
  | none => State.answer code [] (Reply.refusal .badCommand, s)
  | some c =>
    if c.classOf.opens s.control.state then s.collect c []
    else State.answer code [] (Reply.refusal .badState, s)

/-- A complete argument byte (R181). -/
def State.takeArgument (s : State) (b : Byte) : State :=
  match s.port.code.bind PortCommand.ofCode with
  | some c => s.collect c (s.port.args ++ [b])
  | none => s

/-- A whole byte has been clocked, with what LDI has given (R180). -/
def State.takeByte (s : State) (b : Byte) : State :=
  match s.port.phase with
  | .code => s.takeCode b
  | .arguments => s.takeArgument b
  | .closed => s
  | .waiting => s
  | .result => s.setPort s.port.advance
  | .response => s.setPort s.port.advance
  | .trailing => s

/-! ### Bits -/

/-- A rising edge of LCLK samples one bit from LDI, most significant bit first; the eighth completes a byte (R180). -/
def State.lclkRise (s : State) (bit : Bool) : State :=
  if s.port.bits.length < 7 then s.setPort { s.port with bits := s.port.bits ++ [bit] }
  else (s.setPort { s.port with bits := [] }).takeByte (wordOfBits 8 (s.port.bits ++ [bit]))

/-- One bit of a transaction: the edge that drives LDO, then the rising edge that samples LDI. LCLK edges while LSEL is
high are ignored (R180), and the last bit of a TAKE_NOTICE response is left to NOTICE_REMOVAL (log 12). -/
def State.clockBit (s : State) (bit : Bool) : State :=
  if s.port.phase = .closed then s
  else if s.port.atRemoval then s.lclkFall
  else s.lclkFall.lclkRise bit

/-- Bits of a transaction, in the order in which LDI gives them. -/
def State.clock (s : State) (bits : List Bool) : State := bits.foldl State.clockBit s

/-- The command whose transaction further bits carry on: the one that the code byte picks, once those bits complete it
(R195). -/
def Port.picks (p : Port) (ldi : List Bool) : Option PortCommand :=
  match p.phase with
  | .code => PortCommand.ofCode (wordOfBits 8 ((p.bits ++ ldi).take 8))
  | _ => p.code.bind PortCommand.ofCode

/-- Whether bits can be those of a transaction of this command, none for a code byte that names none: the code byte is
the command's, or not complete yet. -/
def Port.spells (p : Port) (c : Option PortCommand) (ldi : List Bool) : Bool :=
  p.phase == .code && decide ((p.bits ++ ldi).length < 8) || p.picks ldi == c

/-- LDI bits of a transaction of a command, the first of them or further ones (log 11). Bits that spell another command
are no event of this one (log 3). -/
def State.transact (s : State) (c : Option PortCommand) (ldi : List Bool) : State :=
  if s.port.spells c ldi then s.clock ldi else s

/-! ### The commands -/

/-- BAD_COMMAND: a code byte that names no command is taken with the result BAD_COMMAND; no argument bytes are
read and no other state changes (R181, R184). -/
def execBadCommand (ldi : List Bool) (s : State) : Result := .next (s.transact none ldi)

/-- SET_IDENTITY (R164). -/
def execSetIdentity (ldi : List Bool) (s : State) : Result := .next (s.transact (some .setIdentity) ldi)

/-- SET_TIMING (R165). -/
def execSetTiming (ldi : List Bool) (s : State) : Result := .next (s.transact (some .setTiming) ldi)

/-- DECLARE_POINT (R27). -/
def execDeclarePoint (ldi : List Bool) (s : State) : Result := .next (s.transact (some .declarePoint) ldi)

/-- SET_WINDOW (R96). -/
def execSetWindow (ldi : List Bool) (s : State) : Result := .next (s.transact (some .setWindow) ldi)

/-- COMMIT (R166). -/
def execCommit (ldi : List Bool) (s : State) : Result := .next (s.transact (some .commit) ldi)

/-- READ_STATUS (R188). -/
def execReadStatus (ldi : List Bool) (s : State) : Result := .next (s.transact (some .readStatus) ldi)

/-- READ_POINT (R21). -/
def execReadPoint (ldi : List Bool) (s : State) : Result := .next (s.transact (some .readPoint) ldi)

/-- TAKE_NOTICE (R108). -/
def execTakeNotice (ldi : List Bool) (s : State) : Result := .next (s.transact (some .takeNotice) ldi)

/-- READ_PEER (R70). -/
def execReadPeer (ldi : List Bool) (s : State) : Result := .next (s.transact (some .readPeer) ldi)

/-- READ_TALLIES (R130). -/
def execReadTallies (ldi : List Bool) (s : State) : Result := .next (s.transact (some .readTallies) ldi)

/-- CLEAR_FAULT (R178). -/
def execClearFault (ldi : List Bool) (s : State) : Result := .next (s.transact (some .clearFault) ldi)

/-- WRITE_POINT (R29). -/
def execWritePoint (ldi : List Bool) (s : State) : Result := .next (s.transact (some .writePoint) ldi)

/-- RECALL_PEER (R88). -/
def execRecallPeer (ldi : List Bool) (s : State) : Result := .next (s.transact (some .recallPeer) ldi)

/-- WITHDRAW (R170). -/
def execWithdraw (ldi : List Bool) (s : State) : Result := .next (s.transact (some .withdraw) ldi)

/-- REJOIN (R174). -/
def execRejoin (ldi : List Bool) (s : State) : Result := .next (s.transact (some .rejoin) ldi)

/-- RESTART (R175). -/
def execRestart (ldi : List Bool) (s : State) : Result := .next (s.transact (some .restart) ldi)

end Sys2Proof.Machine
end

