-- ==== Sys2Proof/Machine/Dispatch.lean ====
section
/-! DEFINITION. Machine/Dispatch.lean: the meaning of each command, one arm per constructor of Instr. -/

namespace Sys2Proof.Machine

open Sys2Proof

def exec (i : Instr) (s : State) : Host.Outcome State Fault Refusal :=
  match i with
  | .transactionOpen => Sys2Proof.Machine.execTransactionOpen s
  | .transactionClose => Sys2Proof.Machine.execTransactionClose s
  | .badCommand ldi => Sys2Proof.Machine.execBadCommand ldi s
  | .setIdentity ldi => Sys2Proof.Machine.execSetIdentity ldi s
  | .setTiming ldi => Sys2Proof.Machine.execSetTiming ldi s
  | .declarePoint ldi => Sys2Proof.Machine.execDeclarePoint ldi s
  | .setWindow ldi => Sys2Proof.Machine.execSetWindow ldi s
  | .commit ldi => Sys2Proof.Machine.execCommit ldi s
  | .readStatus ldi => Sys2Proof.Machine.execReadStatus ldi s
  | .readPoint ldi => Sys2Proof.Machine.execReadPoint ldi s
  | .takeNotice ldi => Sys2Proof.Machine.execTakeNotice ldi s
  | .readPeer ldi => Sys2Proof.Machine.execReadPeer ldi s
  | .readTallies ldi => Sys2Proof.Machine.execReadTallies ldi s
  | .clearFault ldi => Sys2Proof.Machine.execClearFault ldi s
  | .writePoint ldi => Sys2Proof.Machine.execWritePoint ldi s
  | .recallPeer ldi => Sys2Proof.Machine.execRecallPeer ldi s
  | .withdraw ldi => Sys2Proof.Machine.execWithdraw ldi s
  | .rejoin ldi => Sys2Proof.Machine.execRejoin ldi s
  | .restart ldi => Sys2Proof.Machine.execRestart ldi s
  | .coldReset => Sys2Proof.Machine.execColdReset s
  | .noticeRemoval => Sys2Proof.Machine.execNoticeRemoval s
  | .lineBusy cells => Sys2Proof.Machine.execLineBusy s cells
  | .lineIdle cells => Sys2Proof.Machine.execLineIdle s cells
  | .lineBreak cells => Sys2Proof.Machine.execLineBreak s cells
  | .stuck => Sys2Proof.Machine.execStuck s
  | .stuckEnd => Sys2Proof.Machine.execStuckEnd s
  | .earlyEdge => Sys2Proof.Machine.execEarlyEdge s
  | .frameEnd cells => Sys2Proof.Machine.execFrameEnd cells s
  | .transmitStart => Sys2Proof.Machine.execTransmitStart s
  | .completed => Sys2Proof.Machine.execCompleted s
  | .lost => Sys2Proof.Machine.execLost s
  | .bitError cells => Sys2Proof.Machine.execBitError s cells
  | .failed => Sys2Proof.Machine.execFailed s
  | .publishTimerExpiry => Sys2Proof.Machine.execPublishTimerExpiry s
  | .beaconTimerExpiry => Sys2Proof.Machine.execBeaconTimerExpiry s
  | .silenceTimerExpiry peer => Sys2Proof.Machine.execSilenceTimerExpiry peer s
  | .recallWaitExpiry peer => Sys2Proof.Machine.execRecallWaitExpiry peer s
  | .joinExpiry => Sys2Proof.Machine.execJoinExpiry s
  | .helloHoldExpiry => Sys2Proof.Machine.execHelloHoldExpiry s
  | .millisecondClockAdvance => Sys2Proof.Machine.execMillisecondClockAdvance s
  | .breakEnd => Sys2Proof.Machine.execBreakEnd s

end Sys2Proof.Machine
end

