-- ==== Sys2Proof/Safety.lean ====
section
/-! DEFINITION. Safety.lean: what every state that a run reaches satisfies, block by block, as decidable
properties of one state. -/

namespace Sys2Proof.Machine

open Sys2Proof

/-! ### Frames -/

/-- The target that an ASK names. -/
def FrameBody.target : FrameBody → Option Station
  | .ask target _ _ _ => some target
  | .update _ _ => none
  | .hello _ => none
  | .beacon _ _ _ => none
  | .resend _ => none

/-- The frames that stations send: the sender and an ASK's target are stations, only an UPDATE may be ALARM, an UPDATE
or RESEND carries at least one item and no index twice, values have the bytes of their size, a carried beacon period is
1..250, and the body fits its length field (R115 to R118). -/
abbrev Frame.sendable (f : Frame) : Prop :=
  namesStation f.sender = true ∧ (∀ n ∈ f.body.target, namesStation n = true) ∧
  (f.alarm = true → f.body.kind = .update) ∧
  (f.body.kind = .update ∨ f.body.kind = .resend → f.body.items ≠ []) ∧
  (f.body.items.map Item.index).Nodup ∧ (∀ i ∈ f.body.items, i.value.length = i.size.bytes) ∧
  (∀ p ∈ f.body.period, periodInRange p = true) ∧ f.bodyBytes.length ≤ 31

/-! ### Notice unit and local port -/

/-- The key of an UPDATED or REFRESHED record. -/
def NoticeRecord.changeKey? (r : NoticeRecord) : Option Key :=
  match r.body with
  | .updated k _ => some k
  | .refreshed k _ => some k
  | .clash _ _ => none
  | .tableFull _ _ => none
  | .peer _ _ => none
  | .state _ _ => none
  | .lostNotices _ => none

/-- Two records are not change records of one key. -/
abbrev differentChange (a b : NoticeRecord) : Prop := a.changeKey? = none ∨ a.changeKey? ≠ b.changeKey?

/-- The Notice Queue holds at most 32 records and at most one change record for a key; the overflow marker stands
only over a full queue, and the count is not 0 exactly while it stands; a mark names a head (R101, R105 to R110). -/
abbrev NoticeUnit.wf (u : NoticeUnit) : Prop :=
  u.queue.length ≤ 32 ∧ u.queue.Pairwise differentChange ∧ (u.overflow = true → u.queue.length = 32) ∧
    (u.overflow = true ↔ u.lostCount ≠ 0) ∧ (u.mark ≠ .none → u.queue ≠ [])

/-- Whether the port returns an accepted TAKE_NOTICE. -/
def Port.takesNotice (p : Port) : Bool :=
  p.replying && p.code == some PortCommand.takeNotice.code && (p.reply.map Reply.result == some .ok)

/-- What each phase holds of the transaction: nothing when closed, no command before the code byte, no reply before
the take, and a reply from then on; fewer than eight bits of a byte; and LDO is driven in an open transaction alone
(R180, R182). -/
abbrev Port.wf (p : Port) : Prop :=
  p.bits.length ≤ 7 ∧ (p.phase ≠ .closed → p.ldo ≠ none) ∧
  (p.phase = .closed → p = Port.reset) ∧
  (p.phase = .code → p = { Port.opened with bits := p.bits, ldo := p.ldo } ∧ (p.bits = [] → p = Port.opened)) ∧
  (p.phase = .arguments → p.code ≠ none ∧ p.reply = none ∧ p.sent = 0) ∧
  (p.phase = .waiting ∨ p.phase = .result → p.code ≠ none ∧ p.reply ≠ none ∧ p.sent = 0) ∧
  (p.phase = .response → p.code ≠ none ∧ p.reply ≠ none ∧ p.sent < p.responseLength) ∧
  (p.phase = .trailing → p.code ≠ none ∧ p.reply ≠ none ∧ p.sent = p.responseLength)

/-- The head record is marked as being taken exactly while the port returns an accepted TAKE_NOTICE, whose response
has nine bytes (R108 to R110, R197). -/
abbrev State.portWf (s : State) : Prop :=
  s.port.wf ∧ (s.notices.mark ≠ .none ↔ s.port.takesNotice = true) ∧
    (s.port.takesNotice = true → s.port.responseLength = 9)

/-- A command whose argument bytes are being collected is in its class, as it was at its code byte (R181, R184). -/
abbrev State.collectingWf (s : State) : Prop :=
  s.port.phase = .arguments → ∀ c ∈ s.port.code.bind PortCommand.ofCode, c.classOf.opens s.control.state = true

/-! ### The frame in flight -/

/-- Whether an own UPDATE is in flight at the arbiter. -/
abbrev Arbiter.sendsUpdate (a : Arbiter) : Prop := a.inFlight = some .alarm ∨ a.inFlight = some .routine

/-- A frame under assembly stops before its last check bit; it is marked own only after its arbitration field, and
after that field it is so marked while an own frame is in flight (R119, R124, R135). -/
abbrev Assembly.wf (a : Assembly) (inFlight : Option Want) : Prop :=
  unfinished a.bits = true ∧ (a.own = true → 11 ≤ a.bits.length) ∧
    (11 ≤ a.bits.length → inFlight ≠ none → a.own = true)

/-- A frame is under assembly only on a BUSY line, and no early-edge interval is open beside it or on a free line
(R119, R137, R142, R143). -/
abbrev State.assemblyWf (s : State) : Prop :=
  (∀ a ∈ s.frame.assembly, a.wf s.arbiter.inFlight) ∧
  (s.frame.assembly ≠ none → s.line.condition = .busy ∧ s.line.early = .none) ∧
  (s.line.condition = .idle → s.line.early = .none)

/-- The line is driven exactly while an own frame is in flight, only in JOINING and IN_SERVICE; a withdraw is pending
only during a flight; fewer than eight failures stand; each owner holds the frame that is in flight, and no other;
and a frame under assembly is the own one while it is in flight and past its arbitration field, so no frame is judged
during a flight (R37, R72, R90, R119, R124, R145, R150, R153, R157, R170; log 7). -/
abbrev State.flightWf (s : State) : Prop :=
  s.assemblyWf ∧
  (s.arbiter.inFlight = none ↔ s.line.drive = .idle) ∧
  (s.arbiter.inFlight ≠ none → s.control.state = .joining ∨ s.control.state = .inService) ∧
  (s.control.state = .joining → s.control.helloDone = false →
    s.arbiter.inFlight = none ∨ s.arbiter.inFlight = some .hello) ∧
  (s.control.withdrawPending = true → s.arbiter.inFlight ≠ none) ∧
  s.arbiter.failures ≤ 7 ∧
  (s.publication.flight.isSome = true ↔ s.arbiter.sendsUpdate) ∧
  (s.publication.resendFlight ≠ [] ↔ s.arbiter.inFlight = some .resend) ∧
  (s.peers.asking.isSome = true ↔ s.arbiter.inFlight = some .ask)

/-! ### Station states and timers -/

/-- A timer runs only where it may, and is held only in LISTENING. -/
abbrev Timer.fits (t : Timer) (mayRun : Prop) (listening : Prop) : Prop :=
  (t.isRunning = true → mayRun) ∧ (t.isHeld = true → listening)

/-- JOINING or IN_SERVICE: the states in which the line may be driven and the timers run (R162). -/
abbrev StationState.isActive (st : StationState) : Prop := st = .joining ∨ st = .inService

/-- The station after COMMIT has a number; in CONFIGURING nothing is assembled; the HELLO has completed in IN_SERVICE;
the count of R172 stands only in LISTENING(LINE_TROUBLE), below 32; and each timer runs and is held only in the
states that its rule gives (R31, R44, R82, R131, R162, R166, R167, R169, R171, R172). -/
abbrev State.stationWf (s : State) : Prop :=
  (s.control.state ≠ .configuring → s.control.station ≠ none) ∧
  (∀ n ∈ s.control.station, namesStation n = true) ∧
  (s.control.state = .configuring → s.frame.assembly = none) ∧
  (s.control.state = .inService → s.control.helloDone = true) ∧
  s.control.lineTroubleCount ≤ 31 ∧
  (s.control.lineTroubleCount ≠ 0 → s.control.state = .listening .lineTrouble) ∧
  s.control.joinTimer.fits (s.control.state = .joining ∧ s.control.helloDone = true)
    (s.control.state.isListening = true) ∧
  s.control.helloHold.fits (s.control.state.isActive ∧ s.control.helloDone = true) False ∧
  s.publication.publishTimer.fits (s.control.state.isActive ∧ s.control.helloDone = true)
    (s.control.state.isListening = true) ∧
  s.publication.beaconTimer.fits (s.control.state.isActive ∧ s.control.helloDone = true)
    (s.control.state.isListening = true) ∧
  (∀ r ∈ s.peers.records, r.recallWait.fits s.control.state.isActive (s.control.state.isListening = true))

/-! ### Own points and publication -/

/-- Values have the bytes of their size (R4). -/
abbrev OwnEntry.wf (e : OwnEntry) : Prop :=
  e.current.length = e.size.bytes ∧ ∀ p ∈ e.published, p.value.length = e.size.bytes

/-- The indexes of the own entries whose published value is present. -/
def PointTable.publishedSet (t : PointTable) : IndexSet :=
  IndexSet.ofList ((t.own.filter (fun e => e.published.isSome)).map OwnEntry.index)

/-- The items of an own UPDATE or RESEND name declared indexes once each, in their declared sizes. -/
abbrev PointTable.carries (t : PointTable) (items : List Item) : Prop :=
  (items.map Item.index).Nodup ∧
    ∀ i ∈ items, ∃ e ∈ t.own, e.index = i.index ∧ e.size = i.size ∧ i.value.length = i.size.bytes

/-- The items of the UPDATE in flight. -/
def Publication.flightItems (p : Publication) : List Item :=
  match p.flight with
  | some f => f.items
  | none => []

/-- The records of own points are sorted by index and hold values of their size (R4, R27). -/
abbrev PointTable.ownWf (t : PointTable) : Prop :=
  tableSorted (fun d : Declaration => d.index.toNat) t.declarations ∧
  tableSorted (fun e : OwnEntry => e.index.toNat) t.own ∧
  (∀ d ∈ t.declarations, d.initial.length = d.size.bytes) ∧ ∀ e ∈ t.own, e.wf

/-- An own point with nothing published, or whose current value is not the published one, waits in the Publish Set or
is in flight; a snapshot in flight is the current value unless the index waits again (R30, R37). -/
abbrev State.nothingForgotten (s : State) : Prop :=
  (∀ e ∈ s.points.own, e.published.map Published.value ≠ some e.current → s.publication.waiting e.index = true) ∧
  ∀ i ∈ s.publication.flightItems, ∀ e ∈ s.points.own, e.index = i.index → e.current ≠ i.value →
    i.index ∈ s.publication.publishSet

/-- The ROUTINE UPDATE frames completed in the round, 0 when it is closed (R28, R32). -/
def Round.carried : Round → Nat
  | .closed => 0
  | .opened n => n

/-- The Publish Set holds declared indexes once each; the published index set is that of the present published
values; the Replay Set is a part of it, disjoint from the RESEND in flight; a round counts at most 3
(R30, R32, R37, R42, R90). -/
abbrev State.publicationWf (s : State) : Prop :=
  s.points.ownWf ∧
  s.publication.publishSet.Nodup ∧ (∀ i ∈ s.publication.publishSet, i ∈ s.points.declared) ∧
  s.points.carries s.publication.flightItems ∧
  s.publication.published = s.points.publishedSet ∧
  IndexSet.subset s.publication.replay s.publication.published = true ∧
  IndexSet.subset (IndexSet.ofList s.publication.resendFlight) s.publication.published = true ∧
  s.publication.replay &&& IndexSet.ofList s.publication.resendFlight = 0 ∧
  s.publication.round.carried ≤ 3

/-- The ROUTINE UPDATE want stands exactly while a round is open and the set is not empty, the RESEND want exactly while
the Replay Set is not empty and no RESEND is in flight, the ALARM UPDATE want only while an urgent member waits
(R32, R35, R91). -/
abbrev State.wantsWf (s : State) : Prop :=
  (s.arbiter.wants.routine = (s.publication.round.isOpen && !s.publication.publishSet.isEmpty)) ∧
  (s.arbiter.wants.resend = (s.publication.replay != 0 && s.publication.resendFlight.isEmpty)) ∧
  (s.arbiter.wants.alarm = true → s.urgentWaiting = true)

/-! ### Peers and mirrored points -/

/-- Whether the silence timer runs as the record's state has it: stopped in LOST, to the loss limit in SILENT, to either
limit in LIVE and RECOVERING (R66 to R68). The loss limit runs on in a forced recall of a SILENT record and, where that
recall fails, in the LIVE record after it (R84, R88). -/
def PeerRecord.silenceFits (r : PeerRecord) : Bool :=
  match r.silence with
  | .stopped => r.state == .lost
  | .running .silence _ => r.state == .live || r.state == .recovering
  | .running .loss _ => r.state != .lost

/-- The two laws of R52 on the need, the relations of R72, and the silence timer of each state (R52, R66, R72, R84,
R88). -/
abbrev PeerRecord.wf (r : PeerRecord) : Prop :=
  IndexSet.subset r.need r.bounded = true ∧
  (r.state = .recovering ↔ r.need ≠ 0) ∧
  (r.askDue = true → r.state = .recovering) ∧
  (r.askDue = true → r.recallWait = .stopped) ∧
  (r.recallWait ≠ .stopped → r.state = .recovering) ∧
  (r.covered ≠ 0 → r.askDue = true) ∧
  r.attempts ≤ 3 ∧ (r.askDue = true → r.attempts ≤ 2) ∧
  (r.attempts ≠ 0 → r.state = .recovering) ∧
  r.silenceFits = true

/-- The Peer Table holds at most 32 records in rising order of stations on the line, none for the own number; each
record keeps the relations of R52 and R72, and an ASK that is due asks for something, in flight too, since no frame is
classified during a flight; an owned ASK in flight is due; the loss list holds each LOST station once; the ASK want
follows R74 (R49, R51 to R53, R72, R74; log 7). -/
abbrev State.peersWf (s : State) : Prop :=
  s.peers.records.length ≤ 32 ∧
  tableSorted (fun r : PeerRecord => r.station.toNat) s.peers.records ∧
  (∀ r ∈ s.peers.records, r.wf ∧ namesStation r.station = true ∧ s.control.station ≠ some r.station ∧
    r.interest = interestSet s.notices.windows s.control.station r.station ∧
    (r.askDue = true → IndexSet.subset r.need r.covered = false)) ∧
  (∀ a ∈ s.peers.asking, a.asked ≠ 0 ∧
    (a.owned = true → ∃ r ∈ s.peers.records, r.station = a.target ∧ r.askDue = true)) ∧
  s.peers.lossList.Nodup ∧
  (∀ n ∈ s.peers.lossList, s.peers.isLost n = true) ∧
  (∀ r ∈ s.peers.records, r.state = .lost → r.station ∈ s.peers.lossList) ∧
  (s.arbiter.wants.ask = (s.peers.records.any PeerRecord.askDue && s.peers.asking.isNone)) ∧
  (s.control.state = .configuring → s.peers.records = [])

/-- The mirrored entries stand in rising order of their keys; each holds a value of its size and belongs to a record
whose interest set names it; all are STALE while that record is SILENT or LOST; own and mirrored entries are at most
256 (R2, R6, R11, R52, R55). -/
abbrev State.mirrorsWf (s : State) : Prop :=
  s.points.count ≤ 256 ∧
  tableSorted (fun e : MirrorEntry => e.key.rank) s.points.mirrored ∧
  ∀ e ∈ s.points.mirrored, e.value.length = e.size.bytes ∧
    ∃ r ∈ s.peers.records, r.station = e.key.station ∧ IndexSet.mem r.interest e.key.index = true ∧
      (r.isAway = true → e.state = .stale)

/-- Everything above at once. -/
abbrev State.wf (s : State) : Prop :=
  s.notices.wf ∧ s.portWf ∧ s.collectingWf ∧ s.flightWf ∧ s.stationWf ∧ s.publicationWf ∧ s.nothingForgotten ∧
    s.wantsWf ∧ s.peersWf ∧ s.mirrorsWf

end Sys2Proof.Machine
end

