-- ==== Sys2Proof/Certificates/Slice0/Obligations.lean ====
section
/-! DEFINITION. Certificates/Slice0/Obligations.lean: the statements about the SK620 for the provers. -/

open Sys2Proof Sys2Proof.Machine

/-! ### The queue of commands -/

/-- A step runs the command at the front of the queue on the state with the queue's rest (the model's own queue, log
1). -/
def Obligations.StepRunsTheFrontCommand : Prop :=
  ∀ (c : Instr) (rest : List Instr) (s : State), s.pending = c :: rest → step s = exec c { s with pending := rest }

/-- On an empty queue one CLKIN period passes: a running timer loses one period of its time and stops at none left, a
held and a stopped one stay as they are, and nothing else changes (the model's choice, log 1). -/
def Obligations.EmptyQueueLetsOnePeriodPass : Prop :=
  ∀ (s : State) (period : Timer → Timer) (quiet : SilenceTimer → SilenceTimer), s.pending = [] →
    (∀ x, period x = (match x with
      | .running left => .running (left - 1)
      | .held left => .held left
      | .stopped => .stopped)) →
    (∀ x, quiet x = (match x with
      | .running limit left => .running limit (left - 1)
      | .stopped => .stopped)) →
    step s = .next
      { s with
        control := { s.control with
          joinTimer := period s.control.joinTimer, helloHold := period s.control.helloHold }
        publication := { s.publication with
          publishTimer := period s.publication.publishTimer, beaconTimer := period s.publication.beaconTimer }
        peers := { s.peers with
          records := s.peers.records.map (fun r =>
            { r with silence := quiet r.silence, recallWait := period r.recallWait }) } }

/-- Every command gives a next state and leaves the queue to the step: the manual gives the SK620 no condition under
which it stops. -/
def Obligations.EveryCommandAnswersANextState : Prop :=
  ∀ (c : Instr) (s : State), ∃ t, exec c s = .next t ∧ t.pending = s.pending

/-! ### Reset -/

/-- COLD_RESET returns every block to its default (R176, R48, R96, R112, R137, R192); the queue is the model's own and
is kept (log 19). -/
def Obligations.ColdResetReturnsEveryBlock : Prop :=
  ∀ s : State, ∃ t, exec .coldReset s = .next t ∧ t.pending = s.pending ∧
    (t.control.state = .configuring ∧ t.control.helloDone = false ∧ t.control.withdrawPending = false ∧
      t.control.lineTroubleCount = 0 ∧ t.control.station = none ∧ t.control.epoch = 0 ∧
      t.control.timing.rate.cellPeriods = 128 ∧ t.control.timing.interval.ms = 10 ∧
      t.control.timing.multiple.times = 8 ∧ t.control.timing.recallWait.ms = 20 ∧ t.control.faults.any = false ∧
      t.control.clock = 0 ∧ t.control.joinTimer = .stopped ∧ t.control.helloHold = .stopped) ∧
    (t.line.condition = .busy ∧ t.line.drive = .idle ∧ t.line.early = .none) ∧
    t.frame = ⟨none, 0, 0, 0, 0⟩ ∧
    ((∀ w, t.arbiter.wants.raised w = false) ∧ t.arbiter.inFlight = none ∧ t.arbiter.failures = 0 ∧
      t.arbiter.arbLost = 0 ∧ t.arbiter.txFail = 0) ∧
    t.points = ⟨[], [], []⟩ ∧
    t.publication = ⟨[], none, 0, 0, 0, [], .stopped, .stopped, .closed⟩ ∧
    t.peers = ⟨[], [], none⟩ ∧
    ((∀ w ∈ t.notices.windows.toList, w = ⟨false, ⟨0, 0⟩, ⟨0, 0⟩, .quiet⟩) ∧ t.notices.queue = [] ∧
      t.notices.overflow = false ∧ t.notices.lostCount = 0 ∧ t.notices.mark = .none) ∧
    t.attention = false ∧ t.port = ⟨.closed, none, [], none, none, 0, [], none⟩

/-- The state after a cold reset satisfies every invariant of Safety.lean. -/
def Obligations.ResetStateIsWellFormed : Prop :=
  State.reset.wf

/-! ### The local port -/

/-- The fall of LSEL opens a transaction in phase CODE with the first bit of 0xA5 on LDO; the rise closes it at any
phase, with LDO at high impedance, keeps the effect of a command that was taken, and leaves a head record still being
taken in the queue with its being-taken mark cleared (R109, R180, R183). That the close drops the reply, the bytes and
the bits of a byte cut short, and clears the changed mark too, is the model's choice (log 25 and 29). -/
def Obligations.TransactionOpensAndCloses : Prop :=
  ∀ s : State,
    (s.port.phase = .closed →
      exec .transactionOpen s = .next
        { s with port := ⟨.code, none, [], none, none, 0, [], some ((0xA5 : Byte).getLsbD 7)⟩ }) ∧
    exec .transactionClose s = .next
      { s with
        port := ⟨.closed, none, [], none, none, 0, [], none⟩
        notices := { s.notices with mark := .none } }

/-- The eight bits of a code byte pick its command by the table of code bytes: a command without arguments is taken,
and any other waits in ARGUMENTS for the bytes that the table gives it, DECLARE_POINT and WRITE_POINT for a count that
an argument fixes. A command outside its class is taken at its code byte with BAD_STATE, and a code byte outside the
table with BAD_COMMAND; neither changes any other state (R180, R181, R184, R195). That bits which spell another
command's code change nothing under a row, and that a command is taken at the edge that completes its last byte, is the
model's choice (log 3, 11 and 33). -/
def Obligations.CodeBytePicksItsCommand : Prop :=
  ∀ (table : List (Byte × PortCommand)) (needed : PortCommand → Option Nat) (code : Byte) (s : State),
    table = [(0x01, .readStatus), (0x02, .readPoint), (0x03, .takeNotice), (0x04, .readPeer), (0x05, .readTallies),
      (0x06, .clearFault), (0x11, .setIdentity), (0x12, .setTiming), (0x13, .declarePoint), (0x14, .setWindow),
      (0x15, .commit), (0x21, .writePoint), (0x22, .recallPeer), (0x23, .withdraw), (0x24, .rejoin), (0x25, .restart)] →
    (∀ c, needed c = (match c with
      | .readPoint => some 2 | .readPeer => some 1 | .clearFault => some 1 | .setIdentity => some 2
      | .setTiming => some 4 | .setWindow => some 7 | .recallPeer => some 1
      | .declarePoint => none | .writePoint => none | _ => some 0)) →
    s.port = Port.opened →
    (∀ c, (code, c) ∈ table → ∀ outside : Prop,
      outside = ((c ∈ [PortCommand.setIdentity, .setTiming, .declarePoint, .setWindow, .commit] ∧
          s.control.state ≠ .configuring) ∨
        (c ∈ [PortCommand.writePoint, .recallPeer, .withdraw, .rejoin, .restart] ∧ s.control.state = .configuring)) →
      (outside →
        exec (c.toInstr (portBits [code])) s = .next { s with port := Port.taken code [] ⟨.badState, []⟩ }) ∧
      (¬outside → needed c ≠ some 0 →
        exec (c.toInstr (portBits [code])) s = .next { s with port := Port.collecting code [] (needed c) }) ∧
      (¬outside → needed c = some 0 →
        ∃ t, exec (c.toInstr (portBits [code])) s = .next t ∧ t.port.phase = .waiting ∧ t.port.code = some code ∧
          t.port.reply ≠ none) ∧
      exec (.badCommand (portBits [code])) s = .next s ∧
      ∀ c', c' ≠ c → exec (c'.toInstr (portBits [code])) s = .next s) ∧
    ((∀ c, (code, c) ∉ table) →
      exec (.badCommand (portBits [code])) s = .next { s with port := Port.taken code [] ⟨.badCommand, []⟩ } ∧
      ∀ c : PortCommand, exec (c.toInstr (portBits [code])) s = .next s)

/-- However the bits of a transaction are clocked, a command that does not end in OK changes nothing but the port:
refused at any check, EMPTY, or still without its argument bytes. The response bytes after OK have the length of the
table of code bytes, READ_POINT's following its size byte; no other result has any (R180 to R184, R195, R197). The
count of free values is the model's own (log 15). -/
def Obligations.RefusalsChangeNothingAndResponsesFit : Prop :=
  ∀ (c : PortCommand) (ldi : List Bool) (s t : State), s.portWf → s.port.phase = .code ∨ s.port.phase = .arguments →
    (∀ i, i = c.toInstr ldi ∨ i = .badCommand ldi → exec i s = .next t →
      (∀ b, t.port.reply ≠ some ⟨.ok, b⟩) → { t with port := s.port, freeCount := s.freeCount } = s) ∧
    (s.points.ownWf → (∀ e ∈ s.points.mirrored, e.value.length = e.size.bytes) → exec (c.toInstr ldi) s = .next t →
      ∀ r, t.port.reply = some r →
        (r.result ≠ .ok → r.bytes = []) ∧
        (r.result = .ok →
          match c with
          | .readStatus => r.bytes.length = 14
          | .readPoint => ∃ z : Size, r.bytes[1]? = some z.byte ∧ r.bytes.length = 5 + z.bytes
          | .takeNotice => r.bytes.length = 9
          | .readPeer => r.bytes.length = 14
          | .readTallies => r.bytes.length = 12
          | _ => r.bytes = []))

/-- A command in its class whose argument bytes are not complete waits in phase ARGUMENTS with the bytes received, LDO
still at 0xA5, without being taken; further bits of the transaction carry it on, and the close abandons it (R180,
R181, R183). That the bits may come in several commands of its row is the model's choice (log 11), and so is that the
close drops them (log 25). -/
def Obligations.IncompleteCommandIsAbandoned : Prop :=
  ∀ (c : PortCommand) (args : List Byte) (s : State) (p : Port), s.port = Port.opened →
    c.classOf.opens s.control.state = true →
    (∀ k ≤ args.length, ∀ n, argCount s.points c (args.take k) = some n → k < n) →
    p = ⟨.arguments, some c.code, args, argCount s.points c args, none, 0, [], some ((0xA5 : Byte).getLsbD 0)⟩ →
    exec (c.toInstr (portBits (c.code :: args))) s = .next { s with port := p } ∧
    (∀ more : List Bool,
      exec (c.toInstr more) { s with port := p } = exec (c.toInstr (portBits (c.code :: args) ++ more)) s) ∧
    exec .transactionClose { s with port := p } =
      .next { s with port := Port.reset, notices := { s.notices with mark := .none } }

/-- Each LCLK cycle of a transaction drives one bit on LDO and samples one from LDI, most significant bit first. A
taken command leaves WAITING with its reply and nothing of it sent. LDO carries 0xA5 up to the result, then the value
of the result, then the response bytes in order, then 0x00; a byte that begins in WAITING is filler or the result
byte; after the result comes the first response byte or TRAILING, after the last response byte TRAILING. LCLK is
ignored in a closed transaction (R180, R182, R195). How many filler bytes come is a free value (log 11), and the last
bit of a TAKE_NOTICE response is left to NOTICE_REMOVAL (log 12). -/
def Obligations.LdoCarriesTheReplyBitByBit : Prop :=
  (∀ b : Byte, portBits [b] = (List.range 8).map (fun k => b.getLsbD (7 - k))) ∧
  (∀ (s : State) (c : PortCommand) (ldi : List Bool), s.port.phase ≠ .closed → s.port.phase ≠ .code →
    s.port.code = some c.code → exec (c.toInstr ldi) s = .next (s.clock ldi)) ∧
  (∀ (s : State) (c : PortCommand) (ldi : List Bool), s.port.phase = .closed →
    exec (c.toInstr ldi) s = .next s ∧ exec (.badCommand ldi) s = .next s) ∧
  (∀ (s : State) (ldi more : List Bool), s.clock (ldi ++ more) = (s.clock ldi).clock more) ∧
  (∀ (s : State) (bit : Bool), s.port.phase = .code ∨ s.port.phase = .arguments → s.port.bits.length < 7 →
    s.clock [bit] =
      { s with
        port := { s.port with
          bits := s.port.bits ++ [bit], ldo := some ((0xA5 : Byte).getLsbD (7 - s.port.bits.length)) } }) ∧
  (∀ (code : Byte) (args : List Byte) (reply : Reply),
    Port.taken code args reply =
      ⟨.waiting, some code, args, some args.length, some reply, 0, [], some ((0xA5 : Byte).getLsbD 0)⟩) ∧
  ∀ (s : State) (r : Reply) (bit : Bool) (k : Nat) (carried : Phase → Byte) (after : Port → Port),
    s.port.reply = some r → k = s.port.bits.length →
    (∀ phase, carried phase = (match phase with
      | .result => (match r.result with
        | .ok => 0x00 | .empty => 0x01 | .notFound => 0x02 | .badArgument => 0x03 | .badState => 0x04
        | .badCommand => 0x05 | .badConfig => 0x06)
      | .response => r.bytes.getD s.port.sent 0
      | .trailing => 0x00
      | _ => 0xA5)) →
    (∀ p, after p =
      { p with
        ldo := some ((carried p.phase).getLsbD (7 - k))
        bits := if k < 7 then p.bits ++ [bit] else []
        phase :=
          if k < 7 then p.phase
          else match p.phase with
            | .result => if r.bytes = [] then .trailing else .response
            | .response => if s.port.sent + 1 < r.bytes.length then .response else .trailing
            | phase => phase
        sent :=
          if k = 7 ∧ p.phase = .response then
            (if s.port.sent + 1 < r.bytes.length then s.port.sent + 1 else r.bytes.length)
          else p.sent }) →
    (s.port.phase = .waiting → k = 0 →
      ∃ p, (p = s.port ∨ p = { s.port with phase := .result }) ∧
        s.clock [bit] = { s with port := after p, freeCount := s.freeCount + 1 }) ∧
    ((s.port.phase = .waiting ∧ 0 < k) ∨ s.port.phase = .result ∨ s.port.phase = .response ∨ s.port.phase = .trailing →
      k ≤ 7 → ∀ last : Prop,
      last = (s.port.phase = .response ∧ s.port.code = some 0x03 ∧ k = 7 ∧ r.bytes.length ≤ s.port.sent + 1) →
      (¬last → s.clock [bit] = { s with port := after s.port }) ∧
      (last → s.clock [bit] = { s with port := { s.port with ldo := some ((carried .response).getLsbD 0) } }))

/-! ### Configuration -/

/-- SET_IDENTITY sets station number and epoch together; a number outside 1..62 is refused. SET_TIMING replaces all
four values at the codes of the table, and is refused whole for a code out of range or a beacon period of 800 ms
(R164, R165, R185). -/
def Obligations.IdentityAndTimingAreStored : Prop :=
  (∀ (s : State) (n epoch : Byte), s.port = Port.opened → s.control.state = .configuring →
     (1 ≤ n.toNat ∧ n.toNat ≤ 62 →
       exec (.setIdentity (portBits [0x11, n, epoch])) s = .next
         { s with
           control := { s.control with station := some (n.setWidth 6), epoch := epoch }
           port := Port.taken 0x11 [n, epoch] ⟨.ok, []⟩ }) ∧
     (¬(1 ≤ n.toNat ∧ n.toNat ≤ 62) →
       exec (.setIdentity (portBits [0x11, n, epoch])) s = .next
         { s with port := Port.taken 0x11 [n, epoch] ⟨.badArgument, []⟩ })) ∧
  (∀ (s : State) (rate publish multiple wait : Byte), s.port = Port.opened →
     s.control.state = .configuring →
     ((rate.toNat ≤ 3 ∧ publish.toNat ≤ 4 ∧ multiple.toNat ≤ 2 ∧ wait.toNat ≤ 3 ∧
         ¬(publish.toNat = 4 ∧ multiple.toNat = 2)) →
       ∃ t : Timing, exec (.setTiming (portBits [0x12, rate, publish, multiple, wait])) s = .next
           { s with
             control := { s.control with timing := t }
             port := Port.taken 0x12 [rate, publish, multiple, wait] ⟨.ok, []⟩ } ∧
         t.rate.cellPeriods = [512, 256, 128, 64].getD rate.toNat 0 ∧
         t.interval.ms = [2, 5, 10, 20, 50].getD publish.toNat 0 ∧
         t.multiple.times = [4, 8, 16].getD multiple.toNat 0 ∧
         t.recallWait.ms = [10, 20, 40, 80].getD wait.toNat 0) ∧
     (¬(rate.toNat ≤ 3 ∧ publish.toNat ≤ 4 ∧ multiple.toNat ≤ 2 ∧ wait.toNat ≤ 3 ∧
         ¬(publish.toNat = 4 ∧ multiple.toNat = 2)) →
       exec (.setTiming (portBits [0x12, rate, publish, multiple, wait])) s = .next
         { s with port := Port.taken 0x12 [rate, publish, multiple, wait] ⟨.badArgument, []⟩ }))

/-- DECLARE_POINT adds or replaces whole the one record of its index and leaves the other records as they were; an
index above 63 or an urgent byte other than 0 and 1 is refused. SET_WINDOW replaces the named window whole, its keys
read from bits 11..0 of the packed keys, and leaves the other windows; a field out of range is refused (R27, R96,
R185, R196). -/
def Obligations.PointsAndWindowsAreDeclared : Prop :=
  (∀ (s : State) (i z u : Byte) (value : List Byte), s.port = Port.opened → s.control.state = .configuring →
     value.length = (Size.ofCode (z.extractLsb' 0 2)).bytes →
     ((i.toNat ≤ 63 ∧ (u = 0 ∨ u = 1)) →
       ∃ l, exec (.declarePoint (portBits (0x13 :: i :: z :: u :: value))) s = .next
           { s with
             points := { s.points with declarations := l }
             port := Port.taken 0x13 (i :: z :: u :: value) ⟨.ok, []⟩ } ∧
         tableFind (fun d : Declaration => d.index.toNat) i.toNat l =
           some ⟨i.setWidth 6, Size.ofCode (z.extractLsb' 0 2), u == 1, value⟩ ∧
         (∀ j, j ≠ i.toNat → tableFind (fun d : Declaration => d.index.toNat) j l =
           tableFind (fun d : Declaration => d.index.toNat) j s.points.declarations) ∧
         (tableSorted (fun d : Declaration => d.index.toNat) s.points.declarations →
           tableSorted (fun d : Declaration => d.index.toNat) l)) ∧
     (¬(i.toNat ≤ 63 ∧ (u = 0 ∨ u = 1)) →
       exec (.declarePoint (portBits (0x13 :: i :: z :: u :: value))) s = .next
         { s with port := Port.taken 0x13 (i :: z :: u :: value) ⟨.badArgument, []⟩ })) ∧
  (∀ (s : State) (n e b1 b2 m1 m2 mode : Byte), s.port = Port.opened →
     s.control.state = .configuring →
     ((n.toNat ≤ 7 ∧ (e = 0 ∨ e = 1) ∧ mode.toNat ≤ 2) →
       ∃ v, exec (.setWindow (portBits [0x14, n, e, b1, b2, m1, m2, mode])) s = .next
           { s with
             notices := { s.notices with windows := v }
             port := Port.taken 0x14 [n, e, b1, b2, m1, m2, mode] ⟨.ok, []⟩ } ∧
         ∀ k : Fin 8, v[k] =
           if k.val = n.toNat then
             ⟨e == 1, ⟨(b1 ++ b2).extractLsb' 6 6, (b1 ++ b2).extractLsb' 0 6⟩,
               ⟨(m1 ++ m2).extractLsb' 6 6, (m1 ++ m2).extractLsb' 0 6⟩,
               [NotifyMode.quiet, .onChange, .onEvery].getD mode.toNat .quiet⟩
           else s.notices.windows[k]) ∧
     (¬(n.toNat ≤ 7 ∧ (e = 0 ∨ e = 1) ∧ mode.toNat ≤ 2) →
       exec (.setWindow (portBits [0x14, n, e, b1, b2, m1, m2, mode])) s = .next
         { s with port := Port.taken 0x14 [n, e, b1, b2, m1, m2, mode] ⟨.badArgument, []⟩ }))

/-- COMMIT with a station number creates one own entry for each declaration with nothing published, gives the
publication unit its COMMIT values, raises HELLO alone, and enters JOINING with a STATE notice; without a number it is
refused with BAD_CONFIG (R28, R163, R166). -/
def Obligations.CommitCreatesOwnPointsAndJoins : Prop :=
  ∀ s : State, s.port = Port.opened → s.control.state = .configuring →
    (∀ n, s.control.station = some n →
      ∃ w : Wants, exec (.commit (portBits [0x15])) s = .next
          { s with
            control := { s.control with state := .joining, helloDone := false }
            points := { s.points with own := s.points.declarations.map (fun d => ⟨d.index, d.size, d.urgent, d.initial, none⟩) }
            publication :=
              ⟨s.points.declarations.map Declaration.index, none, 0, 0, 0, [], .stopped, .stopped, .closed⟩
            arbiter := { s.arbiter with wants := w }
            notices := s.notices.offer ⟨.state n .joining, s.control.clock⟩
            port := Port.taken 0x15 [] ⟨.ok, []⟩ } ∧
        ∀ k, w.raised k = decide (k = .hello)) ∧
    (s.control.station = none →
      exec (.commit (portBits [0x15])) s = .next { s with port := Port.taken 0x15 [] ⟨.badConfig, []⟩ })

/-! ### Reads -/

/-- READ_STATUS answers the fourteen bytes of its layout and changes nothing (R188, R197); that it reads all blocks
between whole events is the model's choice (log 30). READ_TALLIES answers the six tallies and clears them in the same
step; the failure count is no tally (R130, R160). -/
def Obligations.StatusAndTalliesAreRead : Prop :=
  (∀ s : State, s.port = Port.opened →
     exec (.readStatus (portBits [0x01])) s = .next
       { s with
         port := Port.taken 0x01 [] ⟨.ok,
           [(match s.control.state with | .configuring => 0 | .joining => 1 | .inService => 2 | .listening _ => 3),
            (match s.control.state with
             | .listening .command => 1 | .listening .lineTrouble => 2 | .listening .duplicate => 3 | _ => 0),
            (if s.control.faults.duplicate then 1 else 0) + (if s.control.faults.lineStuck then 2 else 0) +
              (if s.control.faults.lineTrouble then 4 else 0) + (if s.control.faults.tableFull then 8 else 0) +
              (if s.control.faults.peerOverflow then 16 else 0),
            (match s.control.station with | some n => n.setWidth 8 | none => 0),
            s.control.epoch, s.publication.sequence, BitVec.ofNat 8 s.publication.publishSet.length,
            BitVec.ofNat 8 (IndexSet.members s.publication.replay).length, BitVec.ofNat 8 s.peers.records.length,
            BitVec.ofNat 8 ((s.points.own.length + s.points.mirrored.length) / 256),
            BitVec.ofNat 8 (s.points.own.length + s.points.mirrored.length),
            BitVec.ofNat 8 s.notices.queue.length, s.control.clock.extractLsb' 8 8, s.control.clock.extractLsb' 0 8]⟩ }) ∧
  (∀ s : State, s.port = Port.opened →
     exec (.readTallies (portBits [0x05])) s = .next
       { s with
         frame := { s.frame with good := 0, check := 0, cut := 0, format := 0 }
         arbiter := { s.arbiter with arbLost := 0, txFail := 0 }
         port := Port.taken 0x05 [] ⟨.ok,
           [s.frame.good.extractLsb' 8 8, s.frame.good.extractLsb' 0 8,
            s.frame.check.extractLsb' 8 8, s.frame.check.extractLsb' 0 8,
            s.frame.cut.extractLsb' 8 8, s.frame.cut.extractLsb' 0 8,
            s.frame.format.extractLsb' 8 8, s.frame.format.extractLsb' 0 8,
            s.arbiter.arbLost.extractLsb' 8 8, s.arbiter.arbLost.extractLsb' 0 8,
            s.arbiter.txFail.extractLsb' 8 8, s.arbiter.txFail.extractLsb' 0 8]⟩ })

/-- READ_POINT answers an own key from its own entry with the status of R5 and age 0, another key from its mirrored
entry with the age of R18, an absent key with NOT_FOUND, and a station or index out of range with BAD_ARGUMENT.
READ_PEER answers from the station's record, the own beacon period standing in for an unknown one; without a record
NOT_FOUND, outside 1..62 BAD_ARGUMENT. Both change nothing (R3, R5, R18, R21, R50, R70, R189, R197). -/
def Obligations.PointsAndPeersAreRead : Prop :=
  (∀ (s : State) (n i : Byte), s.port = Port.opened →
     ((1 ≤ n.toNat ∧ n.toNat ≤ 62 ∧ i.toNat ≤ 63) →
       exec (.readPoint (portBits [0x02, n, i])) s = .next
         { s with
           port := Port.taken 0x02 [n, i]
             (if s.control.station = some (n.setWidth 6) then
               match s.points.own? (i.setWidth 6) with
               | some e =>
                 ⟨.ok,
                   [if e.published = none then 3
                     else if i.setWidth 6 ∈ s.publication.publishSet ∨
                       i.setWidth 6 ∈ s.publication.flightItems.map Item.index then 4 else 5,
                    BitVec.ofNat 8 e.size.bytes, (match e.published with | some p => p.version | none => 0)] ++
                   e.current ++ [0, 0]⟩
               | none => ⟨.notFound, []⟩
             else
               match s.points.mirror? ⟨n.setWidth 6, i.setWidth 6⟩ with
               | some e =>
                 ⟨.ok,
                   [(match e.state with | .valid => 0 | .suspect => 1 | .stale => 2), BitVec.ofNat 8 e.size.bytes,
                    e.version] ++ e.value ++
                   [(if e.ageSaturated then 0xFFFF else s.control.clock - e.time).extractLsb' 8 8,
                    (if e.ageSaturated then 0xFFFF else s.control.clock - e.time).extractLsb' 0 8]⟩
               | none => ⟨.notFound, []⟩) }) ∧
     (¬(1 ≤ n.toNat ∧ n.toNat ≤ 62 ∧ i.toNat ≤ 63) →
       exec (.readPoint (portBits [0x02, n, i])) s = .next { s with port := Port.taken 0x02 [n, i] ⟨.badArgument, []⟩ })) ∧
  (∀ (s : State) (n : Byte), s.port = Port.opened →
     ((1 ≤ n.toNat ∧ n.toNat ≤ 62) →
       exec (.readPeer (portBits [0x04, n])) s = .next
         { s with
           port := Port.taken 0x04 [n]
             (match s.peers.find? (n.setWidth 6) with
              | none => ⟨.notFound, []⟩
              | some r =>
                ⟨.ok,
                  [(match r.state with | .live => 0 | .recovering => 1 | .silent => 2 | .lost => 3), r.epoch,
                   (match r.expected with | some e => e | none => 0),
                   (match r.expected with | some _ => 0 | none => 1)] ++
                  IndexSet.toBytes r.need ++
                  [BitVec.ofNat 8 r.attempts,
                   (match r.period with
                    | some p => p
                    | none => BitVec.ofNat 8 (s.control.timing.interval.ms * s.control.timing.multiple.times / 2))]⟩) }) ∧
     (¬(1 ≤ n.toNat ∧ n.toNat ≤ 62) →
       exec (.readPeer (portBits [0x04, n])) s = .next { s with port := Port.taken 0x04 [n] ⟨.badArgument, []⟩ }))

/-- TAKE_NOTICE answers the nine bytes of the head record, kind code, subject station and index, version, state,
cause, count and time, with 0x00 for a field that the kind does not carry, and marks it as being taken, with no record
moved or changed; on an empty queue it answers EMPTY and marks nothing (R101, R102, R108, R197). -/
def Obligations.TakeNoticeReturnsTheHead : Prop :=
  ∀ s : State, s.port = Port.opened →
    (∀ h q, s.notices.queue = h :: q →
      exec (.takeNotice (portBits [0x03])) s = .next
        { s with
          notices := { s.notices with mark := .taking }
          port := Port.taken 0x03 [] ⟨.ok,
            (match h.body with
             | .updated k v => [1, k.station.setWidth 8, k.index.setWidth 8, v, 0, 0, 0]
             | .refreshed k v => [2, k.station.setWidth 8, k.index.setWidth 8, v, 0, 0, 0]
             | .clash k v => [3, k.station.setWidth 8, k.index.setWidth 8, v, 0, 0, 0]
             | .tableFull k v => [4, k.station.setWidth 8, k.index.setWidth 8, v, 0, 0, 0]
             | .peer kind n =>
               [(match kind with
                 | .new => 5 | .restarted => 6 | .gap => 7 | .silent => 8 | .lost => 9 | .back => 10
                 | .overflow => 11 | .recallDone => 12 | .recallFailed => 13),
                n.setWidth 8, 0, 0, 0, 0, 0]
             | .state n entered =>
               [14, n.setWidth 8, 0, 0,
                (match entered with | .configuring => 0 | .joining => 1 | .inService => 2 | .listening _ => 3),
                (match entered with
                 | .listening .command => 1 | .listening .lineTrouble => 2 | .listening .duplicate => 3 | _ => 0),
                0]
             | .lostNotices count => [15, 0, 0, 0, 0, 0, count]) ++
            [h.time.extractLsb' 8 8, h.time.extractLsb' 0 8]⟩ }) ∧
    (s.notices.queue = [] →
      exec (.takeNotice (portBits [0x03])) s = .next { s with port := Port.taken 0x03 [] ⟨.empty, []⟩ })

/-- CLEAR_FAULT clears each named flag but one whose keeping condition holds, and no flag that is not named, in every
station state, with OK; ATTN is then released if no flag is left set and the Notice Queue is empty; a byte that names
anything else is refused (R177, R178, R190). -/
def Obligations.ClearFaultKeepsStandingConditions : Prop :=
  ∀ (s : State) (b : Byte), s.port = Port.opened →
    (b.toNat < 32 →
      exec (.clearFault (portBits [0x06, b])) s = .next
        { s with
          control := { s.control with
            faults :=
              ⟨s.control.faults.duplicate && (!b.getLsbD 0 || s.control.state == .listening .duplicate),
               s.control.faults.lineStuck && (!b.getLsbD 1 || s.line.condition == .stuck),
               s.control.faults.lineTrouble && (!b.getLsbD 2 || s.control.state == .listening .lineTrouble),
               s.control.faults.tableFull && !b.getLsbD 3,
               s.control.faults.peerOverflow && !b.getLsbD 4⟩ }
          port := Port.taken 0x06 [b] ⟨.ok, []⟩ }) ∧
    (∀ t, exec (.clearFault (portBits [0x06, b])) s = .next t →
      (t.attention = false ↔ t.notices.queue = [] ∧ t.control.faults = ⟨false, false, false, false, false⟩)) ∧
    (¬b.toNat < 32 →
      exec (.clearFault (portBits [0x06, b])) s = .next { s with port := Port.taken 0x06 [b] ⟨.badArgument, []⟩ })

/-! ### Commands after COMMIT -/

/-- WRITE_POINT replaces the current value alone, appends the index at the tail of the Publish Set unless it is a
member, raises ALARM for an urgent point and ROUTINE while a round is open; an index out of range or not declared is
refused at its byte (R29, R32, R33, R181, R186). -/
def Obligations.WritePointAppendsTheIndexOnce : Prop :=
  ∀ (s : State) (i : Byte) (value : List Byte), s.port = Port.opened → s.control.state ≠ .configuring →
    (∀ e, i.toNat ≤ 63 → s.points.own? (i.setWidth 6) = some e → value.length = e.size.bytes →
      exec (.writePoint (portBits (0x21 :: i :: value))) s = .next
        { s with
          points := { s.points with
            own := s.points.own.map (fun x => if x.index = e.index then { x with current := value } else x) }
          publication := { s.publication with
            publishSet :=
              if e.index ∈ s.publication.publishSet then s.publication.publishSet
              else s.publication.publishSet ++ [e.index] }
          arbiter := { s.arbiter with
            wants := { s.arbiter.wants with
              alarm := s.arbiter.wants.alarm || e.urgent
              routine := s.publication.round.isOpen } }
          port := Port.taken 0x21 (i :: value) ⟨.ok, []⟩ }) ∧
    ((¬i.toNat ≤ 63 ∨ s.points.own? (i.setWidth 6) = none) →
      exec (.writePoint (portBits [0x21, i])) s = .next { s with port := Port.taken 0x21 [i] ⟨.badArgument, []⟩ })

/-- RECALL_PEER begins a recall of the forced need at a record that is not LOST, and changes nothing when that need is
empty; it refuses a station out of range, without a record, or LOST (R88, R186). -/
def Obligations.RecallPeerForcesTheNeed : Prop :=
  ∀ (s : State) (n : Byte), s.port = Port.opened → s.control.state ≠ .configuring →
    (∀ r forced, 1 ≤ n.toNat ∧ n.toNat ≤ 62 → s.peers.find? (n.setWidth 6) = some r → r.state ≠ .lost →
      forced = (match r.published with | some p => r.interest &&& p | none => r.interest) →
      (forced = 0 →
        exec (.recallPeer (portBits [0x22, n])) s = .next { s with port := Port.taken 0x22 [n] ⟨.ok, []⟩ }) ∧
      (forced ≠ 0 →
        ∃ u w, exec (.recallPeer (portBits [0x22, n])) s = .next
            { s with
              peers := u
              arbiter := { s.arbiter with wants := { s.arbiter.wants with ask := w } }
              port := Port.taken 0x22 [n] ⟨.ok, []⟩ } ∧
          u.lossList = s.peers.lossList ∧ u.asking = s.peers.asking ∧ w = s.peers.asking.isNone ∧
          u.find? r.station = some
            { r with
              need := forced, covered := 0, attempts := 0, recallWait := .stopped, askDue := true, state := .recovering } ∧
          ∀ m, m ≠ r.station → u.find? m = s.peers.find? m)) ∧
    (¬(1 ≤ n.toNat ∧ n.toNat ≤ 62) →
      exec (.recallPeer (portBits [0x22, n])) s = .next { s with port := Port.taken 0x22 [n] ⟨.badArgument, []⟩ }) ∧
    (1 ≤ n.toNat ∧ n.toNat ≤ 62 → s.peers.find? (n.setWidth 6) = none →
      exec (.recallPeer (portBits [0x22, n])) s = .next { s with port := Port.taken 0x22 [n] ⟨.notFound, []⟩ }) ∧
    (∀ r, 1 ≤ n.toNat ∧ n.toNat ≤ 62 → s.peers.find? (n.setWidth 6) = some r → r.state = .lost →
      exec (.recallPeer (portBits [0x22, n])) s = .next { s with port := Port.taken 0x22 [n] ⟨.badState, []⟩ })

/-- WITHDRAW enters LISTENING(COMMAND) at once with no frame in flight: the publish, beacon, join and recall-wait
timers held with their remaining times, the hello hold stopped, the counts 0, a STATE notice offered, and everything
else kept; with a frame in flight it is left pending; in LISTENING it is refused. REJOIN drops the held timers, closes
the round, clears the HELLO done mark, raises HELLO and enters JOINING with a STATE notice; the epoch, the sequence,
the sets, the tables, the needs and the flags are kept; outside LISTENING it is refused. A running timer is held with
what it has left, and a held one that is dropped is stopped (R47, R71, R163, R170, R171, R174, R187). -/
def Obligations.WithdrawAndRejoinMoveTheStation : Prop :=
  (∀ left : Nat,
     (Timer.running left).hold = .held left ∧ (Timer.held left).hold = .held left ∧ Timer.stopped.hold = .stopped ∧
     (Timer.held left).drop = .stopped ∧ (Timer.running left).drop = .running left ∧ Timer.stopped.drop = .stopped) ∧
  (∀ s : State, s.port = Port.opened →
     ((s.control.state = .joining ∨ s.control.state = .inService) → s.arbiter.inFlight = none →
       ∀ n, s.control.station = some n →
         exec (.withdraw (portBits [0x23])) s = .next
           { s with
             control := { s.control with
               state := .listening .command
               withdrawPending := false
               lineTroubleCount := 0
               joinTimer := s.control.joinTimer.hold
               helloHold := .stopped }
             publication := { s.publication with
               publishTimer := s.publication.publishTimer.hold
               beaconTimer := s.publication.beaconTimer.hold }
             peers := { s.peers with
               records := s.peers.records.map (fun r => { r with recallWait := r.recallWait.hold }) }
             arbiter := { s.arbiter with failures := 0 }
             notices := s.notices.offer ⟨.state n (.listening .command), s.control.clock⟩
             port := Port.taken 0x23 [] ⟨.ok, []⟩ }) ∧
     ((s.control.state = .joining ∨ s.control.state = .inService) → s.arbiter.inFlight ≠ none →
       exec (.withdraw (portBits [0x23])) s = .next
         { s with
           control := { s.control with withdrawPending := true }
           port := Port.taken 0x23 [] ⟨.ok, []⟩ }) ∧
     (∀ cause, s.control.state = .listening cause →
       exec (.withdraw (portBits [0x23])) s = .next { s with port := Port.taken 0x23 [] ⟨.badState, []⟩ })) ∧
  (∀ s : State, s.port = Port.opened →
     (∀ cause n, s.control.state = .listening cause → s.control.station = some n →
       exec (.rejoin (portBits [0x24])) s = .next
         { s with
           control := { s.control with
             state := .joining, helloDone := false, joinTimer := .stopped, lineTroubleCount := 0 }
           publication := { s.publication with publishTimer := .stopped, beaconTimer := .stopped, round := .closed }
           peers := { s.peers with
             records := s.peers.records.map (fun r => { r with recallWait := r.recallWait.drop }) }
           arbiter := { s.arbiter with
             failures := 0, wants := { s.arbiter.wants with routine := false, hello := true } }
           notices := s.notices.offer ⟨.state n .joining, s.control.clock⟩
           port := Port.taken 0x24 [] ⟨.ok, []⟩ }) ∧
     ((s.control.state = .joining ∨ s.control.state = .inService) →
       exec (.rejoin (portBits [0x24])) s = .next { s with port := Port.taken 0x24 [] ⟨.badState, []⟩ }))

/-- RESTART begins the next epoch with the frozen configuration: every block takes its restart values, a frame in
flight is abandoned with no outcome, a frame under assembly is discarded when it is marked own and kept when it is
not, LINE_STUCK is kept while the line is STUCK, and the STATE notice JOINING stands alone in the queue (R8, R48,
R124, R131, R146, R159, R163, R175). That an unmarked frame is kept even if its cells so far were the station's own,
and that a cut of it then raises no CUT, is read from R146 with R124 (log 17). -/
def Obligations.RestartBeginsANewEpoch : Prop :=
  ∀ s : State, s.port = Port.opened → s.control.state ≠ .configuring →
    ∀ n, s.control.station = some n →
      exec (.restart (portBits [0x25])) s = .next
        { s with
          control := { s.control with
            state := .joining
            helloDone := false
            withdrawPending := false
            lineTroubleCount := 0
            epoch := s.control.epoch + 1
            faults := ⟨false, s.control.faults.lineStuck && s.line.condition == .stuck, false, false, false⟩
            joinTimer := .stopped
            helloHold := .stopped }
          line := { s.line with drive := .idle }
          frame :=
            ⟨(match s.frame.assembly with | some a => if a.own = true then none else some a | none => none), 0, 0, 0, 0⟩
          arbiter := ⟨⟨false, true, false, false, false, false⟩, none, 0, 0, 0⟩
          points := { s.points with own := s.points.own.map (fun e => { e with published := none }), mirrored := [] }
          publication := ⟨s.points.own.map OwnEntry.index, none, 0, 0, 0, [], .stopped, .stopped, .closed⟩
          peers := ⟨[], [], none⟩
          notices := ⟨s.notices.windows, [⟨.state n .joining, s.control.clock⟩], false, 0, .none⟩
          port := Port.taken 0x25 [] ⟨.ok, []⟩ }

/-! ### Notices -/

/-- A key matches a window when the window is enabled and each of the twelve key bits whose mask bit is 0 equals the
base key's bit. The interest set of another station holds the indexes whose key matches a window, that of the own
station none; and the mode of a key is that of the lowest-numbered window that matches it (R51, R97 to R99). -/
def Obligations.WindowsGiveInterestAndMode : Prop :=
  (∀ (w : Window) (k : Key),
     (w.matches k = true ↔
       w.enabled = true ∧ ∀ b < 12, w.mask.bits.getLsbD b = false → k.bits.getLsbD b = w.base.bits.getLsbD b) ∧
     ∀ b < 6, k.bits.getLsbD b = k.index.getLsbD b ∧ k.bits.getLsbD (6 + b) = k.station.getLsbD b) ∧
  (∀ (windows : Vector Window 8) (own : Option Station) (k : Key),
    IndexSet.mem (interestSet windows own k.station) k.index = true ↔
      own ≠ some k.station ∧ ∃ j : Fin 8, windows[j].matches k = true) ∧
  (∀ (windows : Vector Window 8) (k : Key),
    (∀ j : Fin 8, windows[j].matches k = true → (∀ i : Fin 8, i < j → windows[i].matches k = false) →
      keyMode windows k = some windows[j].mode) ∧
    ((∀ j : Fin 8, windows[j].matches k = false) → keyMode windows k = none))

/-- An UPDATED offer that passes its mode replaces version and time of the key's queued change record, which becomes
or stays UPDATED at its position, even in a full queue, and marks a head being taken as changed; a REFRESHED offer for
such a key is dropped; without such a record both are appended. The mode drops what it does not keep and counts
nothing as lost; every other offer joins the tail while the queue holds fewer than 32 records, and else is discarded,
sets the overflow marker and raises the lost count, which stops at 255 (R99, R100, R103 to R106, R110). That an offer
with equal contents marks the head too is read from R110 (log 28). -/
def Obligations.OffersCoalesceAppendOrAreLost : Prop :=
  (∀ (u : NoticeUnit) (k : Key) (version : Byte) (time : Word16),
     ((keyMode u.windows k = some .onChange ∨ keyMode u.windows k = some .onEvery) →
       ((∃ r ∈ u.queue, r.changeKey? = some k) →
         u.offer ⟨.updated k version, time⟩ =
           { u with
             queue := u.queue.map (fun r => if r.changeKey? = some k then ⟨.updated k version, time⟩ else r)
             mark :=
               if u.mark ≠ .none ∧ u.queue.head?.bind NoticeRecord.changeKey? = some k then .changed else u.mark }) ∧
       ((∀ r ∈ u.queue, r.changeKey? ≠ some k) →
         u.offer ⟨.updated k version, time⟩ = u.append ⟨.updated k version, time⟩)) ∧
     (keyMode u.windows k = some .onEvery →
       ((∃ r ∈ u.queue, r.changeKey? = some k) → u.offer ⟨.refreshed k version, time⟩ = u) ∧
       ((∀ r ∈ u.queue, r.changeKey? ≠ some k) →
         u.offer ⟨.refreshed k version, time⟩ = u.append ⟨.refreshed k version, time⟩))) ∧
  ((∀ (u : NoticeUnit) (k : Key) (version : Byte) (time : Word16),
     ((keyMode u.windows k = none ∨ keyMode u.windows k = some .quiet) →
       u.offer ⟨.updated k version, time⟩ = u ∧ u.offer ⟨.clash k version, time⟩ = u) ∧
     (keyMode u.windows k ≠ some .onEvery → u.offer ⟨.refreshed k version, time⟩ = u) ∧
     ((keyMode u.windows k = some .onChange ∨ keyMode u.windows k = some .onEvery) →
       u.offer ⟨.clash k version, time⟩ = u.append ⟨.clash k version, time⟩) ∧
     u.offer ⟨.tableFull k version, time⟩ = u.append ⟨.tableFull k version, time⟩ ∧
     (∀ kind n, u.offer ⟨.peer kind n, time⟩ = u.append ⟨.peer kind n, time⟩) ∧
     (∀ n st, u.offer ⟨.state n st, time⟩ = u.append ⟨.state n st, time⟩)) ∧
   (∀ (u : NoticeUnit) (r : NoticeRecord),
     (u.queue.length < 32 → u.append r = { u with queue := u.queue ++ [r] }) ∧
     (32 ≤ u.queue.length →
       u.append r = { u with
         overflow := true, lostCount := if u.lostCount.toNat < 255 then u.lostCount + 1 else 255 })))

/-- At the last response byte of a TAKE_NOTICE the head leaves, and LOST_NOTICES with the lost count takes the freed
place when the overflow marker is set; a head marked changed stays; the marks are cleared and the port goes on to
TRAILING (R107, R109, R110, R180). That the event is taken from whatever phase the reply has reached, and leaves all
bytes sent, is the model's choice (log 12). -/
def Obligations.NoticeRemovalEndsTheTake : Prop :=
  ∀ (s : State) (h : NoticeRecord) (q : List NoticeRecord) (r : Reply) (p : Port), s.notices.queue = h :: q →
    s.port.reply = some r →
    p = { s.port with
      phase := .trailing, sent := r.bytes.length, bits := [], ldo := some ((r.bytes.getLastD 0).getLsbD 0) } →
    (s.notices.mark = .taking →
      exec .noticeRemoval s = .next
        { s with
          notices := { s.notices with
            queue := q ++ (if s.notices.overflow then [⟨.lostNotices s.notices.lostCount, s.control.clock⟩] else [])
            overflow := false
            lostCount := if s.notices.overflow then 0 else s.notices.lostCount
            mark := .none }
          port := p }) ∧
    (s.notices.mark = .changed →
      exec .noticeRemoval s = .next
        { s with
          notices := { s.notices with mark := .none }
          port := p })

/-! ### The line -/

/-- The line condition takes the transitions of its table at LINE_BUSY, LINE_IDLE, LINE_BREAK, BREAK_END, STUCK and
STUCK_END; a falling edge on a free line begins an assembly outside CONFIGURING, and its cells follow; idle and BREAK
cut a frame under assembly after the cells before them, with the CUT tally unless it is an own frame; STUCK sets
LINE_STUCK, which its end leaves set. The first falling edge of the interval after a frame's last check bit raises FORMAT
once, and no later edge of the same interval does (R119, R120, R124, R135, R137, R142 to R144). The cells as operands are
the model's (log 6), and so is that a frame which is being sent when the line becomes free goes on as unheard, a value of
the drive that the model reads from R140 and R141 (log 9), that a frame whose every cell the station began counts as own
before its mark (log 17), that one whose first falling edge is the low of the own tBRK, or comes after the line has
become free under the frame being sent, does not (log 32), that LINE_IDLE acts on a STUCK line (log 10), that an early
edge counts on one (log 35), and that the edge of the own tBRK can be one (log 36). -/
def Obligations.LineConditionFollowsTheLine : Prop :=
  ∀ (s u : State) (cells : List Level) (free : Drive) (cut : FrameUnit → FrameUnit),
    u = s.takeCells cells →
    free = (match s.line.drive with | .sending frame => .unheard frame | drive => drive) →
    (∀ x, cut x = (match x.assembly with
      | none => x
      | some a => { x with
          assembly := none
          cut := if a.own = false ∧ a.origin = .foreign ∧ x.cut.toNat < 65535 then x.cut + 1 else x.cut })) →
    (s.line.condition = .idle →
      (s.control.state = .configuring →
        exec (.lineBusy cells) s = .next { s with line := { s.line with condition := .busy } }) ∧
      (s.control.state ≠ .configuring →
        exec (.lineBusy cells) s = .next
          (State.takeCells
            { s with
              line := { s.line with condition := .busy }
              frame := { s.frame with
                assembly := some ⟨[], false,
                  (match s.line.drive with | .sending _ => .driven | _ => .foreign)⟩ } }
            cells))) ∧
    (s.line.condition = .busy ∨ s.line.condition = .stuck →
      exec (.lineIdle cells) s = .next
        { u with line := { s.line with condition := .idle, drive := free, early := .none }, frame := cut u.frame }) ∧
    (s.line.condition = .busy →
      exec (.lineBreak cells) s = .next
        { u with line := { s.line with condition := .lowBreak }, frame := cut u.frame }) ∧
    (s.line.condition = .lowBreak →
      exec .breakEnd s = .next { s with line := { s.line with condition := .busy } } ∧
      exec .stuck s = .next
        { s with
          line := { s.line with condition := .stuck }
          control := { s.control with faults := { s.control.faults with lineStuck := true } } }) ∧
    (s.line.condition = .stuck →
      exec .stuckEnd s = .next
        { s with line := { s.line with condition := .idle, drive := free, early := .none }, frame := cut s.frame }) ∧
    (s.line.early = .waiting → ∃ t, exec .earlyEdge s = .next t ∧
      t = { s with
        line := { s.line with early := .seen }
        frame := { s.frame with
          format := if s.frame.format.toNat < 65535 then s.frame.format + 1 else s.frame.format } } ∧
      exec .earlyEdge t = .next t)

/-- A sample that finds the line low is a 0 and one that finds it high a 1. Cells that stop before the frame's last
check bit, bit 32 + 8L for the body length L of its lead, add their bits in order to the frame under assembly; with
its eleventh bit the frame is marked own exactly when an own frame is in flight, and nothing else changes. Without a
frame under assembly no bit is taken (R119, R124, R135). That cells which would reach the last check bit change
nothing is the model's choice (log 24). Whose cells they are is the model's own field: after the station has stopped
sending, one low in tBRK and one high on a released line can still be its own (log 17). -/
def Obligations.CellsFillTheAssemblyBuffer : Prop :=
  ∀ (s : State) (cells : List Level) (next : Origin → Level → Origin),
    (∀ o c, next o c = (match o, s.line.drive, c with
      | .driven, .sending _, _ => .driven
      | .driven, .breaking, .low => .ended
      | .driven, .idle, .high => .ended
      | _, _, _ => .foreign)) →
    (∀ c : Level, sampledBit c = decide (c = .high)) ∧
    (s.frame.assembly = none → s.takeCells cells = s) ∧
    ∀ (a : Assembly) (bits : List Bool) (lead : Word16), s.frame.assembly = some a →
      bits = a.bits ++ cells.map sampledBit → (∀ k < 16, lead.getLsbD (15 - k) = (bits[k]?).getD false) →
      (bits.length < 16 ∨ bits.length < 32 + 8 * (lead.extractLsb' 0 5).toNat →
        s.takeCells cells =
          { s with
            frame := { s.frame with
              assembly := some
                { bits := bits
                  own := if a.bits.length < 11 ∧ 11 ≤ bits.length then s.arbiter.inFlight.isSome else a.own
                  origin := cells.foldl next a.origin } } }) ∧
      (16 ≤ bits.length → 32 + 8 * (lead.extractLsb' 0 5).toNat ≤ bits.length → s.takeCells cells = s)

/-! ### Frames -/

/-- The check value starts at 0xFFFF and takes the lead and then the body bit by bit, most significant bit first: each
bit is compared with bit 15, the register shifts left with a 0 entering, and 0x2F15 is exclusive-ORed in if they
differed; 16 + 8L bits are covered for a body of L bytes; a sender sends the value after the body, most significant
bit first, and a receiver compares it with the check bits received (R194). -/
def Obligations.CheckValueTakesEachBit : Prop :=
  (∀ (lead : Word16) (body : List Byte),
    checkValue lead body =
      ((List.range 16).map (fun k => lead.getLsbD (15 - k)) ++
        body.flatMap (fun b => (List.range 8).map (fun k => b.getLsbD (7 - k)))).foldl
        (fun (r : Word16) bit => if bit = r.getLsbD 15 then r <<< 1 else (r <<< 1) ^^^ 0x2F15) 0xFFFF) ∧
  (∀ (lead : Word16) (body : List Byte),
    (coveredBits lead body).length = 16 + 8 * body.length) ∧
  (∀ f : Frame, f.toWire.check = checkValue f.toWire.lead f.toWire.body) ∧
  (∀ w : WireFrame,
    wireBits w =
      (List.range 16).map (fun k => w.lead.getLsbD (15 - k)) ++
        w.body.flatMap (fun b => (List.range 8).map (fun k => b.getLsbD (7 - k))) ++
        (List.range 16).map (fun k => w.check.getLsbD (15 - k))) ∧
  ∀ w : WireFrame, checkPasses w = true ↔ w.check = checkValue w.lead w.body

/-- A frame of the right length that passes the check is validated as a frame exactly when it is that frame as a
station sends it: reading gives back every field that was built, and nothing else passes (R115 to R118, R121 to R123,
R128, R193). -/
def Obligations.FramesReadBackExactlyAsBuilt : Prop :=
  ∀ (w : WireFrame) (f : Frame),
    (frameEnds w = true ∧ checkPasses w = true ∧ validate w = some f) ↔ (f.sendable ∧ w = f.toWire)

/-- With the cells up to its last check bit a frame leaves the buffer. An own frame, marked so at its eleventh bit, is
discarded with no tally; another station's raises CHECK, FORMAT, or GOOD alone. One that bears the own number is a
duplicate detection: the DUPLICATE flag, and LISTENING(DUPLICATE) entered or its cause taken. Any other is dispatched
to the peer unit, station control and the publication unit (R119, R121, R122, R124 to R127, R129, R171, R173). At the
frame that ends LISTENING(LINE_TROUBLE) the first two stand in either order, the model's free value (log 13), each with
its notices together, the model's choice (log 34). -/
def Obligations.FrameEndJudgesOneFrame : Prop :=
  ∀ (w : WireFrame) (cells : List Level) (s ended : State) (a : Assembly) (mark : Bool),
    s.frame.assembly = some a → a.bits ++ cells.map sampledBit = wireBits w → frameEnds w = true →
    mark = (if a.bits.length < 11 then s.arbiter.inFlight.isSome else a.own) →
    ended = { s with frame := { s.frame with assembly := none }, line := { s.line with early := .waiting } } →
    (mark = true → exec (.frameEnd cells) s = .next ended) ∧
    (mark = false →
      (checkPasses w = false →
        exec (.frameEnd cells) s = .next
          { ended with frame := { ended.frame with check := if s.frame.check = 65535 then 65535 else s.frame.check + 1 } }) ∧
      (checkPasses w = true → validate w = none →
        exec (.frameEnd cells) s = .next
          { ended with
            frame := { ended.frame with format := if s.frame.format = 65535 then 65535 else s.frame.format + 1 } }) ∧
      ∀ f counted good, checkPasses w = true → validate w = some f →
        counted = { ended with
          frame := { ended.frame with good := if s.frame.good = 65535 then 65535 else s.frame.good + 1 } } →
        good = { counted with control := { s.control with faults := { s.control.faults with duplicate := true } } } →
        (s.control.station = some f.sender →
          (s.control.state = .listening .duplicate → exec (.frameEnd cells) s = .next good) ∧
          ((s.control.state = .listening .command ∨ s.control.state = .listening .lineTrouble) →
            exec (.frameEnd cells) s = .next
              { good with
                control := { good.control with state := .listening .duplicate, lineTroubleCount := 0 }
                notices := s.notices.offer ⟨.state f.sender (.listening .duplicate), s.control.clock⟩ }) ∧
          ((s.control.state = .joining ∨ s.control.state = .inService) →
            exec (.frameEnd cells) s = .next
              { good with
                control := { good.control with
                  state := .listening .duplicate
                  withdrawPending := false
                  lineTroubleCount := 0
                  joinTimer := s.control.joinTimer.hold
                  helloHold := .stopped }
                publication := { s.publication with
                  publishTimer := s.publication.publishTimer.hold
                  beaconTimer := s.publication.beaconTimer.hold }
                peers := { s.peers with
                  records := s.peers.records.map (fun r => { r with recallWait := r.recallWait.hold }) }
                arbiter := { s.arbiter with failures := 0 }
                notices := s.notices.offer ⟨.state f.sender (.listening .duplicate), s.control.clock⟩ })) ∧
        (s.control.station ≠ some f.sender →
          (¬(s.control.state = .listening .lineTrouble ∧ 31 ≤ s.control.lineTroubleCount) →
            exec (.frameEnd cells) s = .next (((counted.peerEvent f).controlEvent f).publicationEvent f)) ∧
          (s.control.state = .listening .lineTrouble → 31 ≤ s.control.lineTroubleCount →
            ∃ u, u = { counted with freeCount := s.freeCount + 1 } ∧
              (exec (.frameEnd cells) s = .next (((u.peerEvent f).controlEvent f).publicationEvent f) ∨
                exec (.frameEnd cells) s = .next (((u.controlEvent f).peerEvent f).publicationEvent f)))))

/-- A good frame from another station whose sender has a record, or finds room for one, in a full table by the reclaim
of a LOST record or of one without interest, leaves that record LIVE or RECOVERING at the frame's epoch, expecting the
sequence that the frame gives, with the period that a HELLO or BEACON carries and the silence timer at three beacon
periods; the GOOD tally alone counts it (R55, R57 to R62, R121, R126, R129). -/
def Obligations.GoodFrameReachesItsPeerRecord : Prop :=
  ∀ (w : WireFrame) (f : Frame) (cells : List Level) (s : State) (a : Assembly), s.frame.assembly = some a →
    a.bits ++ cells.map sampledBit = wireBits w → frameEnds w = true →
    (if a.bits.length < 11 then s.arbiter.inFlight.isSome else a.own) = false →
    checkPasses w = true → validate w = some f → s.control.station ≠ some f.sender →
    ((∃ r, s.peers.find? f.sender = some r) ∨ s.peers.records.length < 32 ∨ s.peers.lossList ≠ [] ∨
      ∃ r ∈ s.peers.records, r.interest = 0) →
    ∃ t r, exec (.frameEnd cells) s = .next t ∧
      t.frame = { s.frame with assembly := none, good := if s.frame.good = 65535 then 65535 else s.frame.good + 1 } ∧
      t.line = { s.line with early := .waiting } ∧ t.port = s.port ∧ t.points.own = s.points.own ∧
      t.peers.find? f.sender = some r ∧ r.epoch = f.epoch ∧ (r.state = .live ∨ r.state = .recovering) ∧
      r.silence = .running .silence (16000 * (3 * (match r.period with
        | some p => 2 * p.toNat
        | none => s.control.timing.interval.ms * s.control.timing.multiple.times))) ∧
      match f.body with
      | .update q _ => r.expected = some (q + 1)
      | .beacon q p set => r.expected = some q ∧ r.period = some p ∧ r.published = some set
      | .hello p => r.period = some p
      | _ => True

/-! ### Classification -/

/-- A frame from a station without a record creates one whose state, need and flags its kind gives, with PEER_NEW. In
a full table the head of the loss list, or else the lowest station without interest, gives up its place: its entries
and its record go, and an own ASK to it is disowned. With neither, the frame gets no record: PEER_OVERFLOW is set and
offered, and nothing else changes (R25, R50, R51, R55 to R57, R73, R78). -/
def Obligations.UnknownSenderGetsARecordOrOverflows : Prop :=
  ∀ (s : State) (f : Frame) (interest : IndexSet) (needs : Bool) (record : PeerRecord) (created : State → State),
    s.peers.find? f.sender = none → tableSorted (fun r : PeerRecord => r.station.toNat) s.peers.records →
    interest = interestSet s.notices.windows s.control.station f.sender →
    needs = decide (f.body.kind ≠ .hello ∧ interest ≠ 0) →
    record = ⟨f.sender, if needs then .recovering else .live, f.epoch, if f.body.kind = .hello then some 0 else none, none,
      none, interest, if needs then interest else 0, 0, needs, needs,
      0, .stopped, .stopped⟩ →
    (∀ u, created u = { u with
      peers := { u.peers with records := tableInsert (fun r : PeerRecord => r.station.toNat) record u.peers.records }
      notices := s.notices.offer ⟨.peer .new f.sender, s.control.clock⟩ }) →
    (s.peers.records.length < 32 → s.classify f = ((created s).classifyRecord f).judgeAsk) ∧
    (32 ≤ s.peers.records.length →
      (∀ n, (s.peers.lossList.head? = some n ∨ (s.peers.lossList = [] ∧
          (∃ r ∈ s.peers.records, r.interest = 0 ∧ r.station = n) ∧
          ∀ r ∈ s.peers.records, r.interest = 0 → n.toNat ≤ r.station.toNat)) →
        s.classify f =
          ((created { s with
            points := { s.points with
              mirrored := s.points.mirrored.filter (fun e => decide (e.key.station ≠ n)) }
            peers :=
              ⟨s.peers.records.filter (fun r => decide (r.station ≠ n)),
                s.peers.lossList.filter (fun m => decide (m ≠ n)),
                s.peers.asking.map (fun a => { a with owned := a.owned && decide (a.target ≠ n) })⟩ }).classifyRecord
            f).judgeAsk) ∧
      (s.peers.lossList = [] → (∀ r ∈ s.peers.records, r.interest ≠ 0) →
        s.classify f = { s with
          control := { s.control with faults := { s.control.faults with peerOverflow := true } }
          notices := s.notices.offer ⟨.peer .overflow f.sender, s.control.clock⟩ }))

/-- The peer unit's event at a good frame is its classification, and for an ASK to another station the merge into the
target's record after it. At a record the classification compares the epoch, hears the frame, and takes sequence,
contents, items and recovery in this order: only an UPDATE and a BEACON have a sequence step; a HELLO's period and a
BEACON's contents follow; each item is taken by the point table in body order, and its index then leaves the need; a
RECOVERING record whose need is empty then becomes LIVE with its recall emptied, an own ASK to it disowned, and
RECALL_DONE offered (R10, R54, R60 to R64, R78, R79). -/
def Obligations.ClassificationTakesItsSteps : Prop :=
  (∀ (s : State) (f : Frame),
    s.peerEvent f = (match f.body with
      | .ask target _ _ asked =>
        if s.control.station = some target then s.classify f else (s.classify f).mergeAsk target asked
      | _ => s.classify f)) ∧
  (∀ (s : State) (f : Frame) (r : PeerRecord), s.peers.find? f.sender = some r →
    s.classify f = ((s.checkEpoch r f).classifyRecord f).judgeAsk) ∧
  (∀ (s heard sequenced taken : State) (f : Frame), heard = s.hear f → sequenced = heard.sequenceStep f →
    taken = (sequenced.contentsStep f).itemsStep f →
    s.classifyRecord f =
      (taken.recoveryStep f.sender).metStep f.sender
        (match sequenced.peers.find? f.sender with | some r => r.need | none => 0)) ∧
  (∀ s : State, s.judgeAsk = { s with
    arbiter := { s.arbiter with
      wants := { s.arbiter.wants with ask := s.peers.records.any (fun r => r.askDue) && s.peers.asking.isNone } } }) ∧
  (∀ (s : State) (f : Frame),
    s.sequenceStep f = (match f.body with
      | .update q _ => s.checkSequence f.sender q (q + 1)
      | .beacon q _ _ => s.checkSequence f.sender q q
      | _ => s) ∧
    s.contentsStep f = (match f.body with
      | .beacon _ p set => s.takeBeacon f.sender p set
      | .hello p => { s with peers := { s.peers with
          records := s.peers.records.map (fun r => if r.station = f.sender then { r with period := some p } else r) } }
      | _ => s)) ∧
  (∀ (s : State) (f : Frame) (r : PeerRecord) (items : List Item) (c : Carrier), s.peers.find? f.sender = some r →
    ((∃ q, f.body = .update q items ∧ c = .update) ∨ (f.body = .resend items ∧ c = .resend)) →
    ∃ need, (∀ i, IndexSet.mem need i = true ↔ IndexSet.mem r.need i = true ∧ i ∉ items.map Item.index) ∧
      s.itemsStep f =
        { (items.foldl (fun u i => u.takeItem f.sender r.interest c i) s) with
          peers := (s.itemsStep f).peers } ∧
      (s.itemsStep f).peers.lossList = s.peers.lossList ∧ (s.itemsStep f).peers.asking = s.peers.asking ∧
      (s.itemsStep f).peers.find? f.sender = some { r with need := need } ∧
      ∀ m, m ≠ f.sender → (s.itemsStep f).peers.find? m = s.peers.find? m) ∧
  (∀ (s : State) (n : Station) (r : PeerRecord), s.peers.find? n = some r →
    (¬(r.state = .recovering ∧ r.need = 0) → s.recoveryStep n = s) ∧
    (r.state = .recovering → r.need = 0 →
      s.recoveryStep n =
        { s with
          peers :=
            ⟨s.peers.records.map (fun x =>
                if x.station = n then
                  { x with
                    state := .live
                    need := 0
                    covered := 0
                    askDue := false
                    attempts := 0
                    recallWait := .stopped
                    beaconWanted := false }
                else x),
              s.peers.lossList,
              s.peers.asking.map (fun a => { a with owned := a.owned && decide (a.target ≠ n) })⟩
          notices := s.notices.offer ⟨.peer .recallDone n, s.control.clock⟩ }))

/-- At a frame end the items of an UPDATE in sequence or of a RESEND, from a heard peer at its epoch, are handed to
the point table in body order with the frame's kind, and their indexes leave the need. A recovery that they complete
makes the record LIVE with RECALL_DONE after the items' notices; a need that is then covered by what others have asked
counts as met; otherwise the record keeps its recall (R10, R54, R63, R64, R65, R80, R126). That nothing else is taken
between two items is the model's choice (log 31). -/
def Obligations.ItemsOfAFrameReachThePointTable : Prop :=
  ∀ (w : WireFrame) (f : Frame) (cells : List Level) (s taken : State) (a : Assembly) (r : PeerRecord)
    (items : List Item) (c : Carrier) (expected : Option Byte) (need : IndexSet) (silence : SilenceTimer),
    s.frame.assembly = some a → a.bits ++ cells.map sampledBit = wireBits w → frameEnds w = true →
    (if a.bits.length < 11 then s.arbiter.inFlight.isSome else a.own) = false →
    checkPasses w = true → validate w = some f → s.control.station ≠ some f.sender →
    s.control.state ≠ .listening .lineTrouble → s.peers.find? f.sender = some r → r.epoch = f.epoch →
    (r.state = .live ∨ r.state = .recovering) →
    ((∃ q, f.body = .update q items ∧ c = .update ∧ (r.expected = none ∨ r.expected = some q) ∧
        expected = some (q + 1)) ∨
      (f.body = .resend items ∧ c = .resend ∧ expected = r.expected)) →
    (∀ i, IndexSet.mem need i = true ↔ IndexSet.mem r.need i = true ∧ i ∉ items.map Item.index) →
    taken = items.foldl (fun u i => u.takeItem f.sender r.interest c i) s →
    silence = .running .silence (16000 * (3 * (match r.period with
      | some p => 2 * p.toNat
      | none => s.control.timing.interval.ms * s.control.timing.multiple.times))) →
    ∃ t, exec (.frameEnd cells) s = .next t ∧ t.points = taken.points ∧ t.control = taken.control ∧
      t.publication = s.publication ∧ t.port = s.port ∧
      (∀ m, m ≠ f.sender → t.peers.find? m = s.peers.find? m) ∧
      (r.state = .recovering → need = 0 →
        t.notices = taken.notices.offer ⟨.peer .recallDone f.sender, s.control.clock⟩ ∧
        t.peers.find? f.sender = some
          { r with
            state := .live
            expected := expected
            silence := silence
            need := 0
            covered := 0
            askDue := false
            attempts := 0
            recallWait := .stopped
            beaconWanted := false }) ∧
      (¬(r.state = .recovering ∧ need = 0) → ∀ met, met = (r.askDue && decide (need ≠ r.need) &&
          decide (need &&& ~~~r.covered = 0) && s.peers.asking.all (fun x => decide (x.target ≠ f.sender))) →
        t.notices = taken.notices ∧
        t.peers.find? f.sender = some
          { r with
            expected := expected
            silence := silence
            need := need
            askDue := if met then false else r.askDue
            attempts := if met then r.attempts + 1 else r.attempts
            covered := if met then 0 else r.covered
            recallWait :=
              if met then
                (match s.control.state with
                 | .listening _ => .held (16000 * s.control.timing.recallWait.ms)
                 | _ => .running (16000 * s.control.timing.recallWait.ms))
              else r.recallWait })

/-! ### Items and peers -/

/-- An item whose key has a VALID entry: newer applies, with CLASH if the size differs; the same version refreshes an
equal value and applies a different one with CLASH; older leaves the entry as it is. The carrier does not matter, and
no other entry changes. The relation of two versions is that of their difference modulo 256 (R9, R12). -/
def Obligations.ItemAtAValidEntry : Prop :=
  ∀ (s : State) (n : Station) (interest : IndexSet) (c : Carrier) (i : Item) (e applied refreshed : MirrorEntry) (d : Nat),
    s.points.mirror? ⟨n, i.index⟩ = some e → e.state = .valid → d = (i.version.toNat + 256 - e.version.toNat) % 256 →
    applied = ⟨⟨n, i.index⟩, i.size, .valid, i.value, i.version, s.control.clock, false⟩ →
    refreshed = { e with time := s.control.clock, ageSaturated := false } →
    (versionRelation i.version e.version =
      if d = 0 then .same else if 1 ≤ d ∧ d ≤ 127 then .newer else .older) ∧
    (∀ x : MirrorEntry, x.key = ⟨n, i.index⟩ → (s.points.putMirror x).mirror? ⟨n, i.index⟩ = some x ∧
      ∀ k, k ≠ ⟨n, i.index⟩ → (s.points.putMirror x).mirror? k = s.points.mirror? k) ∧
    (1 ≤ d ∧ d ≤ 127 → i.size = e.size →
      s.takeItem n interest c i =
        { s with
          points := s.points.putMirror applied
          notices := s.notices.offer ⟨.updated ⟨n, i.index⟩ i.version, s.control.clock⟩ }) ∧
    ((1 ≤ d ∧ d ≤ 127 ∧ i.size ≠ e.size) ∨ (d = 0 ∧ ¬(i.size = e.size ∧ i.value = e.value)) →
      s.takeItem n interest c i =
        { s with
          points := s.points.putMirror applied
          notices := (s.notices.offer ⟨.updated ⟨n, i.index⟩ i.version, s.control.clock⟩).offer
            ⟨.clash ⟨n, i.index⟩ i.version, s.control.clock⟩ }) ∧
    (d = 0 → i.size = e.size ∧ i.value = e.value →
      s.takeItem n interest c i =
        { s with
          points := s.points.putMirror refreshed
          notices := s.notices.offer ⟨.refreshed ⟨n, i.index⟩ e.version, s.control.clock⟩ }) ∧
    (128 ≤ d → s.takeItem n interest c i = s)

/-- An item whose key has a SUSPECT or STALE entry makes it VALID, but for an older UPDATE item at a SUSPECT entry,
which is ignored; equal version and value refresh; CLASH is raised as at a VALID entry, never by an older RESEND item
and never at a STALE entry (R13 to R17). -/
def Obligations.ItemAtADoubtedEntry : Prop :=
  ∀ (s : State) (n : Station) (interest : IndexSet) (c : Carrier) (i : Item) (e applied refreshed : MirrorEntry)
    (d : Nat) (same : Prop),
    s.points.mirror? ⟨n, i.index⟩ = some e → d = (i.version.toNat + 256 - e.version.toNat) % 256 →
    same = (i.size = e.size ∧ i.value = e.value) →
    applied = ⟨⟨n, i.index⟩, i.size, .valid, i.value, i.version, s.control.clock, false⟩ →
    refreshed = { e with state := .valid, time := s.control.clock, ageSaturated := false } →
    (e.state ≠ .valid → d = 0 → same →
      s.takeItem n interest c i =
        { s with
          points := s.points.putMirror refreshed
          notices := s.notices.offer ⟨.refreshed ⟨n, i.index⟩ e.version, s.control.clock⟩ }) ∧
    (e.state = .suspect → 128 ≤ d → c = .update → s.takeItem n interest c i = s) ∧
    ((e.state = .stale ∧ ¬(d = 0 ∧ same)) ∨
        (e.state = .suspect ∧ ((128 ≤ d ∧ c = .resend) ∨ (1 ≤ d ∧ d ≤ 127 ∧ i.size = e.size))) →
      s.takeItem n interest c i =
        { s with
          points := s.points.putMirror applied
          notices := s.notices.offer ⟨.updated ⟨n, i.index⟩ i.version, s.control.clock⟩ }) ∧
    (e.state = .suspect → (d = 0 ∧ ¬same) ∨ (1 ≤ d ∧ d ≤ 127 ∧ i.size ≠ e.size) →
      s.takeItem n interest c i =
        { s with
          points := s.points.putMirror applied
          notices := (s.notices.offer ⟨.updated ⟨n, i.index⟩ i.version, s.control.clock⟩).offer
            ⟨.clash ⟨n, i.index⟩ i.version, s.control.clock⟩ })

/-- An item whose key is absent is not held without interest. With interest it creates a VALID entry; in a full table
it takes the place of the lowest STALE entry of a LOST peer, or is refused with TABLE_FULL when there is none (R11,
R19, R20). -/
def Obligations.ItemAtAnAbsentKey : Prop :=
  ∀ (s : State) (n : Station) (interest : IndexSet) (c : Carrier) (i : Item) (created : MirrorEntry),
    tableSorted (fun e : MirrorEntry => e.key.rank) s.points.mirrored → s.points.mirror? ⟨n, i.index⟩ = none →
    created = ⟨⟨n, i.index⟩, i.size, .valid, i.value, i.version, s.control.clock, false⟩ →
    (IndexSet.mem interest i.index = false → s.takeItem n interest c i = s) ∧
    (IndexSet.mem interest i.index = true →
      (s.points.own.length + s.points.mirrored.length < 256 →
        s.takeItem n interest c i =
          { s with
            points := s.points.putMirror created
            notices := s.notices.offer ⟨.updated ⟨n, i.index⟩ i.version, s.control.clock⟩ }) ∧
      (256 ≤ s.points.own.length + s.points.mirrored.length →
        (∀ e ∈ s.points.mirrored, e.state = .stale → s.peers.isLost e.key.station = true →
          (∀ e' ∈ s.points.mirrored, e'.state = .stale → s.peers.isLost e'.key.station = true →
            e.key.rank ≤ e'.key.rank) →
          s.takeItem n interest c i =
            { s with
              points := ({ s.points with
                mirrored := s.points.mirrored.filter (fun x => decide (x.key ≠ e.key)) } : PointTable).putMirror created
              notices := s.notices.offer ⟨.updated ⟨n, i.index⟩ i.version, s.control.clock⟩ }) ∧
        ((∀ e ∈ s.points.mirrored, e.state = .stale → s.peers.isLost e.key.station = false) →
          s.takeItem n interest c i =
            { s with
              control := { s.control with faults := { s.control.faults with tableFull := true } }
              notices := s.notices.offer ⟨.tableFull ⟨n, i.index⟩ i.version, s.control.clock⟩ })))

/-- The sequence check of a carried number: an unknown expectation and a met one take the next one and change nothing
else; any other number is a gap: the peer's VALID entries become SUSPECT, the need grows by the interest bounded by
the published set held before, the record is RECOVERING if the need is not empty, due if it was empty before, and
PEER_GAP is offered. A BEACON then sets period and published index set and trims the need to it: the entries at the
indexes that fall away become STALE (R23, R24, R60, R61, R73, R86). -/
def Obligations.SequenceCheckTakesGaps : Prop :=
  ∀ (s : State) (n : Station) (q next : Byte) (r : PeerRecord) (need : IndexSet), s.peers.find? n = some r →
    need = r.need ||| (match r.published with | some p => r.interest &&& p | none => r.interest) →
    ((r.expected = none ∨ r.expected = some q) →
      s.checkSequence n q next =
        { s with
          peers := { s.peers with
            records := s.peers.records.map (fun x => if x.station = n then { x with expected := some next } else x) } }) ∧
    (∀ e, r.expected = some e → e ≠ q →
      ∃ u, s.checkSequence n q next =
          { s with
            points := { s.points with
              mirrored := s.points.mirrored.map (fun m =>
                if m.key.station = n ∧ m.state = .valid then { m with state := .suspect } else m) }
            peers := u
            notices := s.notices.offer ⟨.peer .gap n, s.control.clock⟩ } ∧
        u.lossList = s.peers.lossList ∧ u.asking = s.peers.asking ∧
        u.find? n = some
          { r with
            expected := some next
            need := need
            state := if need = 0 then r.state else .recovering
            askDue := r.askDue || decide (r.need = 0 ∧ need ≠ 0) } ∧
        ∀ m, m ≠ n → u.find? m = s.peers.find? m) ∧
    (∀ (p : Byte) (set : IndexSet),
      s.takeBeacon n p set =
        { s with
          points := { s.points with
            mirrored := s.points.mirrored.map (fun m =>
              if m.key.station = n ∧ IndexSet.mem r.need m.key.index = true ∧ IndexSet.mem set m.key.index = false then
                { m with state := .stale }
              else m) }
          peers := { s.peers with
            records := s.peers.records.map (fun x =>
              if x.station = n then
                { x with period := some p, published := some set, need := x.need &&& set, beaconWanted := false }
              else x) } })

/-- A frame with the record's epoch changes nothing at step 3. Another epoch is a restart of the peer: its entries
become STALE, its record takes the new epoch with expectation and published set unknown and its recall emptied, it
leaves the loss list, an own ASK to it is disowned, and PEER_RESTARTED is offered; a HELLO leaves it LIVE expecting 0,
another kind RECOVERING with all of its interest needed, or LIVE where that is empty (R24, R58, R73, R78). -/
def Obligations.NewEpochRestartsThePeer : Prop :=
  ∀ (s : State) (f : Frame) (r : PeerRecord), s.peers.find? f.sender = some r →
    (r.epoch = f.epoch → s.checkEpoch r f = s) ∧
    (r.epoch ≠ f.epoch →
      ∃ u, s.checkEpoch r f =
          { s with
            points := { s.points with
              mirrored := s.points.mirrored.map (fun m =>
                if m.key.station = f.sender then { m with state := .stale } else m) }
            peers := u
            notices := s.notices.offer ⟨.peer .restarted f.sender, s.control.clock⟩ } ∧
        u.lossList = s.peers.lossList.filter (fun m => decide (m ≠ f.sender)) ∧
        u.asking = s.peers.asking.map (fun a => { a with owned := a.owned && decide (a.target ≠ f.sender) }) ∧
        (∀ m, m ≠ f.sender → u.find? m = s.peers.find? m) ∧
        u.find? f.sender = some
          { r with
            epoch := f.epoch
            published := none
            covered := 0
            attempts := 0
            recallWait := .stopped
            expected := if f.body.kind = .hello then some 0 else none
            state := if f.body.kind = .hello ∨ r.interest = 0 then .live else .recovering
            need := if f.body.kind = .hello then 0 else r.interest
            askDue := decide (f.body.kind ≠ .hello ∧ r.interest ≠ 0)
            beaconWanted := decide (f.body.kind ≠ .hello ∧ r.interest ≠ 0) })

/-- A good frame restarts its sender's silence timer for three of the beacon periods that the record holds after it,
and takes the sender off the loss list. A SILENT or LOST sender has returned: attempts 0, nothing covered, the need
its interest bounded by the published set, RECOVERING and due if that is not empty and LIVE otherwise, with PEER_BACK
(R53, R59, R66, R73). -/
def Obligations.HearingReturnsAnAwayPeer : Prop :=
  ∀ (s : State) (f : Frame) (r heard : PeerRecord) (bounded : IndexSet), s.peers.find? f.sender = some r →
    bounded = (match r.published with | some p => r.interest &&& p | none => r.interest) →
    heard = { r with
      silence := .running .silence (16000 * (3 * (match f.body with
        | .hello p => 2 * p.toNat
        | .beacon _ p _ => 2 * p.toNat
        | _ => match r.period with
          | some p => 2 * p.toNat
          | none => s.control.timing.interval.ms * s.control.timing.multiple.times))) } →
    ∃ u, u.lossList = s.peers.lossList.filter (fun m => decide (m ≠ f.sender)) ∧ u.asking = s.peers.asking ∧
      (∀ m, m ≠ f.sender → u.find? m = s.peers.find? m) ∧
      ((r.state = .live ∨ r.state = .recovering) →
        s.hear f = { s with peers := u } ∧ u.find? f.sender = some heard) ∧
      ((r.state = .silent ∨ r.state = .lost) →
        s.hear f = { s with peers := u, notices := s.notices.offer ⟨.peer .back f.sender, s.control.clock⟩ } ∧
        u.find? f.sender = some
          { heard with
            attempts := 0
            covered := 0
            need := bounded
            askDue := decide (bounded ≠ 0)
            state := if bounded = 0 then .live else .recovering })

/-- Another station's ASK merges into the record of its target while that record is due and no own ASK to it is in
flight: what it asks is covered, and a need that is covered whole counts as met: no longer due, one attempt more,
nothing covered, and the recall-wait timer started, held in LISTENING. A frame that takes indexes out of the need
makes the same test at its sender (R74, R79, R80, R82; that a disowned ASK counts as in flight is read from R79 and
R80, log 26). -/
def Obligations.AsksOfOthersMergeAndMeet : Prop :=
  ∀ (s : State) (n : Station) (r : PeerRecord) (quiet : Prop) (met : PeerRecord → PeerRecord),
    s.peers.find? n = some r → quiet = (∀ a ∈ s.peers.asking, a.target ≠ n) →
    (∀ x, met x = { x with
      askDue := false
      attempts := x.attempts + 1
      covered := 0
      recallWait := (match s.control.state with
        | .listening _ => .held (16000 * s.control.timing.recallWait.ms)
        | _ => .running (16000 * s.control.timing.recallWait.ms)) }) →
    (∀ asked : IndexSet,
      (¬(r.askDue = true ∧ quiet) → s.mergeAsk n asked = s) ∧
      (r.askDue = true → quiet → ∀ records,
        records = s.peers.records.map (fun x =>
          if x.station = n then
            (if r.need &&& ~~~(r.covered ||| asked) = 0 then met x else { x with covered := x.covered ||| asked })
          else x) →
        s.mergeAsk n asked =
          { s with
            peers := { s.peers with records := records }
            arbiter := { s.arbiter with
              wants := { s.arbiter.wants with
                ask := records.any (fun x => x.askDue) && s.peers.asking.isNone } } })) ∧
    (∀ before : IndexSet,
      (before &&& ~~~r.need ≠ 0 → r.askDue = true → r.need &&& ~~~r.covered = 0 → quiet →
        s.metStep n before =
          { s with peers := { s.peers with
            records := s.peers.records.map (fun x => if x.station = n then met x else x) } }) ∧
      (¬(before &&& ~~~r.need ≠ 0 ∧ r.askDue = true ∧ r.need &&& ~~~r.covered = 0 ∧ quiet) →
        s.metStep n before = s)) ∧
    (∀ (m : Station) (asked : IndexSet), s.peers.find? m = none → s.mergeAsk m asked = s)

/-- An ASK addressed to this station adds the asked indexes that it has published, but those of a RESEND in flight, to
the Replay Set, and raises BEACON when it wants one or believes another epoch; any other frame leaves the publication
unit as it is. A HELLO starts or restarts the hello hold, 64 cells for each unit of the own number, in IN_SERVICE and
in JOINING once the own HELLO has completed (R45, R89, R91, R126, R169). -/
def Obligations.AddressedAsksAndHellosAreTaken : Prop :=
  ∀ (s : State) (f : Frame),
    (∀ target wanted believed asked replay, f.body = .ask target wanted believed asked →
      (s.control.station ≠ some target → s.publicationEvent f = s) ∧
      (s.control.station = some target →
        replay = (s.publication.replay |||
          (asked &&& s.publication.published &&& ~~~IndexSet.ofList s.publication.resendFlight)) →
        s.publicationEvent f =
          { s with
            publication := { s.publication with replay := replay }
            arbiter := { s.arbiter with
              wants := { s.arbiter.wants with
                resend := decide (replay ≠ 0) && s.publication.resendFlight.isEmpty
                beacon := s.arbiter.wants.beacon || wanted || decide (believed ≠ s.control.epoch) } } })) ∧
    (f.body.kind ≠ .ask → s.publicationEvent f = s) ∧
    (s.control.state ≠ .listening .lineTrouble →
      (∀ n, s.control.station = some n → f.body.kind = .hello →
        (s.control.state = .inService ∨ (s.control.state = .joining ∧ s.control.helloDone = true)) →
        s.controlEvent f =
          { s with
            control := { s.control with
              helloHold := .running (n.toNat * 64 * s.control.timing.rate.cellPeriods) } }) ∧
      (¬(f.body.kind = .hello ∧
          (s.control.state = .inService ∨ (s.control.state = .joining ∧ s.control.helloDone = true))) →
        s.controlEvent f = s))

/-- In LISTENING(LINE_TROUBLE) each good frame is counted, and the 32nd takes the station to IN_SERVICE: the held
timers run on with the times they had left, or start in full with a round for a waiting Publish Set if the HELLO had
not completed; the join recall is taken if the join window had not closed; BEACON is raised, and the STATE notice
offered last (R31, R47, R71, R82, R167, R168, R172). That a HELLO which is the 32nd report is taken before the report,
still in LISTENING, and so starts no hello hold, is the model's choice (log 22). -/
def Obligations.ThirtyTwoGoodFramesEndLineTrouble : Prop :=
  (∀ left : Nat,
     (Timer.held left).resume = .running left ∧ (Timer.running left).resume = .running left ∧
     Timer.stopped.resume = .stopped) ∧
  ∀ (s resumed : State) (f : Frame) (n : Station) (opens windowOpen : Bool), s.control.station = some n →
    s.control.state = .listening .lineTrouble →
    opens = (!s.control.helloDone && !s.publication.publishSet.isEmpty && decide (s.publication.round = .closed)) →
    windowOpen = ((match s.control.joinTimer with | .held _ => true | _ => false) || !s.control.helloDone) →
    resumed = { s with
      control := { s.control with lineTroubleCount := 0, joinTimer := .stopped, helloDone := true }
      publication := { s.publication with
        publishTimer :=
          if s.control.helloDone then s.publication.publishTimer.resume
          else .running (16000 * s.control.timing.interval.ms)
        beaconTimer :=
          if s.control.helloDone then s.publication.beaconTimer.resume
          else .running (16000 * (s.control.timing.interval.ms * s.control.timing.multiple.times))
        round := if opens then .opened 0 else s.publication.round }
      peers := { s.peers with
        records := s.peers.records.map (fun r => { r with recallWait := r.recallWait.resume }) }
      arbiter := { s.arbiter with wants := { s.arbiter.wants with routine := s.arbiter.wants.routine || opens } } } →
    (s.control.lineTroubleCount < 31 →
      s.controlEvent f =
        { s with control := { s.control with lineTroubleCount := s.control.lineTroubleCount + 1 } }) ∧
    (31 ≤ s.control.lineTroubleCount → ∀ u, u = (if windowOpen then resumed.joinRecall else resumed) →
      s.controlEvent f =
        { u with
          control := { u.control with state := .inService }
          arbiter := { u.arbiter with wants := { u.arbiter.wants with beacon := true } }
          notices := u.notices.offer ⟨.state n .inService, s.control.clock⟩ })

/-! ### Transmission -/

/-- A start takes the highest raised and offered want and drives the frame that its owner builds; only HELLO is
offered before the HELLO has completed in JOINING; an owner that declines has its want lowered and the next is asked;
no frame starts outside JOINING and IN_SERVICE, with a withdraw pending, on a line that is not free, or during a
flight. A HELLO carries the epoch and the beacon period, a BEACON also the next sequence number and the published
index set (R46, R133, R149 to R152, R167; that the line's own falling edge is a LINE_BUSY after the start is the
model's, log 8). -/
def Obligations.StartTakesTheHighestAllowedWant : Prop :=
  ∀ (s : State) (may : Prop) (offered : Want → Prop),
    may = ((s.control.state = .joining ∨ s.control.state = .inService) ∧ s.control.withdrawPending = false ∧
      s.line.condition = .idle ∧ s.arbiter.inFlight = none) →
    (∀ w, offered w = (s.arbiter.wants.raised w = true ∧
      (w = .hello ∨ s.control.state = .inService ∨ s.control.helloDone = true))) →
    (¬may ∨ (∀ w, ¬offered w) → exec .transmitStart s = .next s) ∧
    (may → ∀ (before after : List Want) (w : Want),
      [Want.alarm, .hello, .ask, .routine, .beacon, .resend] = before ++ w :: after → offered w →
      (∀ v ∈ before, ¬offered v) →
      (∀ f t, s.contents w = some (f, t) →
        exec .transmitStart s = .next
          { t with
            arbiter := { t.arbiter with inFlight := some w }
            line := { t.line with drive := .sending f.toWire } }) ∧
      (s.contents w = none →
        exec .transmitStart s =
          exec .transmitStart { s with arbiter := { s.arbiter with wants := s.arbiter.wants.put w false } })) ∧
    ∀ n, s.control.station = some n →
      s.contents .hello = some
        (⟨false, n, s.control.epoch,
          .hello (BitVec.ofNat 8 (s.control.timing.interval.ms * s.control.timing.multiple.times / 2))⟩, s) ∧
      s.contents .beacon = some
        (⟨false, n, s.control.epoch,
          .beacon s.publication.sequence
            (BitVec.ofNat 8 (s.control.timing.interval.ms * s.control.timing.multiple.times / 2))
            s.publication.published⟩, s)

/-- A ROUTINE UPDATE takes the longest run from the head of the Publish Set that stays within 29 item bytes, an ALARM
UPDATE the longest such run of its urgent members in set order, leaving the others in place; both carry snapshots of
the current values with the versions of R36. The indexes move to the in-flight list, the wants follow what remains,
and no version, no sequence number and no value changes. With an empty set the publication unit declines a ROUTINE
UPDATE, and without an urgent member an ALARM UPDATE (R30, R32 to R37, R151, R152). -/
def Obligations.UpdatesTakeARunOfThePublishSet : Prop :=
  (∀ (s : State) (n : Station) (alarm : Bool) (source : List Index) (lead : Want), s.publicationWf →
     s.control.station = some n →
     (s.control.state = .inService ∨ (s.control.state = .joining ∧ s.control.helloDone = true)) →
     s.control.withdrawPending = false → s.line.condition = .idle → s.arbiter.inFlight = none →
     ((alarm = true ∧ lead = .alarm ∧ s.arbiter.wants.alarm = true ∧
         source = s.publication.publishSet.filter (fun i => s.points.own.any (fun e => decide (e.index = i) && e.urgent))) ∨
       (alarm = false ∧ lead = .routine ∧ s.arbiter.wants.alarm = false ∧ s.arbiter.wants.hello = false ∧
         s.arbiter.wants.ask = false ∧ s.arbiter.wants.routine = true ∧ source = s.publication.publishSet)) →
     source ≠ [] →
     ∃ t items rest, exec .transmitStart s = .next t ∧ items ≠ [] ∧ items.map Item.index ++ rest = source ∧
       t.publication = { s.publication with
         publishSet := s.publication.publishSet.filter (fun i => decide (i ∉ items.map Item.index))
         flight := some ⟨alarm, s.publication.sequence, items⟩ } ∧
       (items.map (fun i => 2 + i.size.bytes)).sum ≤ 29 ∧
       (∀ j ∈ rest.head?, ∀ e ∈ s.points.own, e.index = j →
         29 < (items.map (fun i => 2 + i.size.bytes)).sum + (2 + e.size.bytes)) ∧
       (∀ i ∈ items, ∃ e ∈ s.points.own,
         i = ⟨e.index, e.size, (match e.published with | none => 0 | some p => p.version + 1), e.current⟩) ∧
       t.arbiter = { s.arbiter with
         inFlight := some lead
         wants := { s.arbiter.wants with
           routine := s.publication.round.isOpen && !t.publication.publishSet.isEmpty
           alarm := alarm && !rest.isEmpty } } ∧
       t.line = { s.line with
         drive := .sending (Frame.toWire ⟨alarm, n, s.control.epoch, .update s.publication.sequence items⟩) } ∧
       t.frame = s.frame ∧ t.points = s.points ∧ t.peers = s.peers ∧ t.control = s.control ∧ t.notices = s.notices ∧
       t.port = s.port) ∧
  ∀ s : State,
    (s.publication.publishSet = [] → s.contents .routine = none) ∧
    ((∀ i ∈ s.publication.publishSet, ∀ e ∈ s.points.own, e.index = i → e.urgent = false) → s.contents .alarm = none)

/-- An ASK goes to the lowest station that is due: it carries the record's beacon-wanted flag and epoch and what of
the need is not covered, and fills the marker; with none due the owner declines. A RESEND carries the longest run of
the Replay Set, in ascending order, that stays within 30 item bytes, with the published values and versions; its
indexes move to the in-flight list; with an empty set the owner declines (R72, R74, R75, R91, R92, R152). -/
def Obligations.AskAndResendCarryWhatIsDue : Prop :=
  ∀ (s : State) (n : Station), s.control.station = some n →
    ((∀ r ∈ s.peers.records, r.askDue = false) → s.contents .ask = none) ∧
    (∀ r ∈ s.peers.records, r.askDue = true → tableSorted (fun x : PeerRecord => x.station.toNat) s.peers.records →
      (∀ x ∈ s.peers.records, x.askDue = true → r.station.toNat ≤ x.station.toNat) →
      s.contents .ask = some
        (⟨false, n, s.control.epoch, .ask r.station r.beaconWanted r.epoch (r.need &&& ~~~r.covered)⟩,
          { s with
            peers := { s.peers with asking := some ⟨r.station, r.need &&& ~~~r.covered, true⟩ }
            arbiter := { s.arbiter with wants := { s.arbiter.wants with ask := false } } })) ∧
    (s.publication.replay = 0 → s.contents .resend = none) ∧
    (s.publicationWf → s.publication.replay ≠ 0 →
      ∃ items rest, items ≠ [] ∧ items.map Item.index ++ rest = IndexSet.members s.publication.replay ∧
        (items.map (fun i => 2 + i.size.bytes)).sum ≤ 30 ∧
        (∀ j ∈ rest.head?, ∀ e ∈ s.points.own, e.index = j →
          30 < (items.map (fun i => 2 + i.size.bytes)).sum + (2 + e.size.bytes)) ∧
        (∀ i ∈ items, ∃ e ∈ s.points.own, ∃ p, e.published = some p ∧ i = ⟨e.index, e.size, p.version, p.value⟩) ∧
        s.contents .resend = some
          (⟨false, n, s.control.epoch, .resend items⟩,
            { s with
              publication := { s.publication with
                replay := s.publication.replay &&& ~~~IndexSet.ofList (items.map Item.index)
                resendFlight := items.map Item.index }
              arbiter := { s.arbiter with wants := { s.arbiter.wants with resend := false } } }))

/-- A completed UPDATE publishes its snapshots and versions, takes its indexes out of the Replay Set and into the
published index set, advances the sequence number, restarts the beacon timer, empties the in-flight list, settles the
round and the wants, and clears the failure count (R32, R33, R38, R154; that the own assembly ends with it when no
FRAME_END has come before is read from R119, log 9). The line may have any condition (R141), and may have become free
under the frame; that a frame which has begun since is another station's and stays is the model's reading (log 9). -/
def Obligations.CompletedUpdateIsPublished : Prop :=
  ∀ (s : State) (w : Want) (frame : WireFrame) (heard : Bool) (f : UpdateFlight) (carried : IndexSet) (round : Round),
    s.arbiter.inFlight = some w → (w = .alarm ∨ w = .routine) →
    s.line.drive = (if heard = true then .sending frame else .unheard frame) →
    s.publication.flight = some f → (f.items.map Item.index).Nodup → s.control.withdrawPending = false →
    carried = IndexSet.ofList (f.items.map Item.index) →
    round = (match s.publication.round with
      | .closed => .closed
      | .opened k =>
        if s.publication.publishSet = [] then .closed
        else if f.alarm = true then .opened k
        else if k = 3 then .closed else .opened (k + 1)) →
    (∀ k, s.publication.round = .opened k → k ≤ 3) →
    exec .completed s = .next
      { s with
        points := { s.points with
          own := s.points.own.map (fun e =>
            match f.items.find? (fun i => i.index == e.index) with
            | some i => { e with published := some ⟨i.value, i.version⟩ }
            | none => e) }
        publication := { s.publication with
          flight := none
          replay := s.publication.replay &&& ~~~carried
          published := s.publication.published ||| carried
          sequence := s.publication.sequence + 1
          beaconTimer := .running (16000 * (s.control.timing.interval.ms * s.control.timing.multiple.times))
          round := round }
        arbiter := { s.arbiter with
          inFlight := none
          failures := 0
          wants := { s.arbiter.wants with
            resend := decide (s.publication.replay &&& ~~~carried ≠ 0) && s.publication.resendFlight.isEmpty
            routine := round.isOpen && !s.publication.publishSet.isEmpty
            alarm := s.publication.publishSet.any (fun i =>
              match s.points.own? i with | some e => e.urgent | none => false) } }
        line := { s.line with
          drive := .idle
          early := if heard = true ∧ s.frame.assembly ≠ none then .waiting else s.line.early }
        frame := { s.frame with assembly := if heard = true then none else s.frame.assembly } }

/-- An UPDATE that is lost, or fails with fewer than seven failures before it, returns its indexes to the head of the
Publish Set in carried order and consumes nothing; LOST counts in ARB_LOST and leaves the failure count, FAILED counts
in TX_FAIL and raises it. The frame under assembly at LOST is the winner's: it takes the sampled 0, and no own-frame
mark (R32, R33, R39, R124, R139, R155 to R157). -/
def Obligations.LostUpdateReturnsToTheHead : Prop :=
  ∀ (s : State) (w : Want) (frame : WireFrame) (f : UpdateFlight) (set : List Index) (p : Publication) (x : Wants),
    s.arbiter.inFlight = some w → (w = .alarm ∨ w = .routine) → s.publication.flight = some f →
    s.control.withdrawPending = false →
    set = f.items.map Item.index ++
      s.publication.publishSet.filter (fun i => decide (i ∉ f.items.map Item.index)) →
    p = { s.publication with publishSet := set, flight := none } →
    x = { s.arbiter.wants with
      routine := s.publication.round.isOpen && !set.isEmpty
      alarm := set.any (fun i => match s.points.own? i with | some e => e.urgent | none => false) } →
    (s.line.drive = .sending frame → s.line.condition = .busy → (∀ a ∈ s.frame.assembly, a.bits.length < 11) →
      exec .lost s = .next
        { s with
          publication := p
          arbiter := { s.arbiter with
            inFlight := none
            wants := x
            arbLost := if s.arbiter.arbLost = 65535 then 65535 else s.arbiter.arbLost + 1 }
          line := { s.line with drive := .idle }
          frame := { s.frame with
            assembly := s.frame.assembly.map (fun a =>
              ⟨a.bits ++ [false], if a.bits.length = 10 then false else a.own, .foreign⟩) } }) ∧
    (s.line.drive = .breaking → s.arbiter.failures < 7 →
      exec .failed s = .next
        { s with
          publication := p
          arbiter := { s.arbiter with
            inFlight := none
            wants := x
            failures := s.arbiter.failures + 1
            txFail := if s.arbiter.txFail = 65535 then 65535 else s.arbiter.txFail + 1 }
          line := { s.line with drive := .idle } })

/-- A HELLO that completes in JOINING sets the HELLO done mark, lowers its want, starts the join timer with twice the
beacon period and the publish and beacon timers with full ones, and opens a round if the Publish Set is not empty; in
IN_SERVICE it lowers the want and restarts the beacon timer, on a line of any condition, also one that has become free
under the frame (R31, R44, R141, R167). That the own assembly ends with it, and that one begun after the line has become
free stays, is the model's reading (log 9). -/
def Obligations.CompletedHelloOpensTheJoinWindow : Prop :=
  ∀ (s : State) (frame : WireFrame) (heard opens : Bool) (beaconMs : Nat), s.arbiter.inFlight = some .hello →
    s.line.drive = (if heard = true then .sending frame else .unheard frame) → s.control.withdrawPending = false →
    opens = (!s.publication.publishSet.isEmpty && decide (s.publication.round = .closed)) →
    beaconMs = s.control.timing.interval.ms * s.control.timing.multiple.times →
    (s.control.state = .joining →
      exec .completed s = .next
        { s with
          control := { s.control with helloDone := true, joinTimer := .running (16000 * (2 * beaconMs)) }
          publication := { s.publication with
            publishTimer := .running (16000 * s.control.timing.interval.ms)
            beaconTimer := .running (16000 * beaconMs)
            round := if opens then .opened 0 else s.publication.round }
          arbiter := { s.arbiter with
            inFlight := none
            failures := 0
            wants := { s.arbiter.wants with hello := false, routine := s.arbiter.wants.routine || opens } }
          line := { s.line with
            drive := .idle, early := if heard = true ∧ s.frame.assembly ≠ none then .waiting else s.line.early }
          frame := { s.frame with assembly := if heard = true then none else s.frame.assembly } }) ∧
    (s.control.state = .inService →
      exec .completed s = .next
        { s with
          publication := { s.publication with beaconTimer := .running (16000 * beaconMs) }
          arbiter := { s.arbiter with
            inFlight := none, failures := 0, wants := { s.arbiter.wants with hello := false } }
          line := { s.line with
            drive := .idle, early := if heard = true ∧ s.frame.assembly ≠ none then .waiting else s.line.early }
          frame := { s.frame with assembly := if heard = true then none else s.frame.assembly } })

/-- The completion of an owned ASK counts as an attempt at its target's record: due and covered set cleared, the
request for a BEACON carried, the recall-wait timer started; a disowned one changes no record; a completed BEACON
lowers its want and restarts the beacon timer; a completed RESEND empties its list, and its want stands if more waits.
A lost or failed ASK, BEACON or HELLO changes no record, and a lost or failed RESEND returns its indexes to the Replay
Set; LOST leaves the frame under assembly to the winner with the sampled 0 (R44, R45, R74, R76 to R78, R91, R93, R139,
R141, R154 to R157). COMPLETED comes on a line of any condition; that the own assembly ends with it, and that one begun
after the line has become free stays, is the model's reading (log 9). -/
def Obligations.OutcomesOfAskBeaconAndResend : Prop :=
  ∀ (s land lost failed : State) (frame : WireFrame) (heard : Bool),
    s.control.withdrawPending = false →
    land = { s with
      arbiter := { s.arbiter with inFlight := none, failures := 0 }
      line := { s.line with
        drive := .idle, early := if heard = true ∧ s.frame.assembly ≠ none then .waiting else s.line.early }
      frame := { s.frame with assembly := if heard = true then none else s.frame.assembly } } →
    lost = { s with
      arbiter := { s.arbiter with
        inFlight := none, arbLost := if s.arbiter.arbLost = 65535 then 65535 else s.arbiter.arbLost + 1 }
      line := { s.line with drive := .idle }
      frame := { s.frame with
        assembly := s.frame.assembly.map (fun a =>
          ⟨a.bits ++ [false], if a.bits.length = 10 then false else a.own, .foreign⟩) } } →
    failed = { s with
      arbiter := { s.arbiter with
        inFlight := none
        failures := s.arbiter.failures + 1
        txFail := if s.arbiter.txFail = 65535 then 65535 else s.arbiter.txFail + 1 }
      line := { s.line with drive := .idle } } →
    (s.line.drive = (if heard = true then .sending frame else .unheard frame) →
      (∀ a records, s.arbiter.inFlight = some .ask → s.peers.asking = some a → s.control.state.isListening = false →
        records = s.peers.records.map (fun r =>
          if r.station = a.target ∧ a.owned = true then
            { r with
              askDue := false
              attempts := r.attempts + 1
              covered := 0
              beaconWanted := false
              recallWait := .running (16000 * s.control.timing.recallWait.ms) }
          else r) →
        exec .completed s = .next
          { land with
            peers := { s.peers with records := records, asking := none }
            arbiter := { land.arbiter with
              wants := { s.arbiter.wants with ask := records.any (fun r => r.askDue) } } }) ∧
      (s.arbiter.inFlight = some .beacon →
        exec .completed s = .next
          { land with
            publication := { s.publication with
              beaconTimer := .running (16000 * (s.control.timing.interval.ms * s.control.timing.multiple.times)) }
            arbiter := { land.arbiter with wants := { s.arbiter.wants with beacon := false } } }) ∧
      (s.arbiter.inFlight = some .resend →
        exec .completed s = .next
          { land with
            publication := { s.publication with resendFlight := [] }
            arbiter := { land.arbiter with
              wants := { s.arbiter.wants with resend := decide (s.publication.replay ≠ 0) } } })) ∧
    ∀ (returned : State → State),
      (∀ u, returned u =
        (if s.arbiter.inFlight = some .ask then
          { u with
            peers := { s.peers with asking := none }
            arbiter := { u.arbiter with
              wants := { s.arbiter.wants with ask := s.peers.records.any (fun r => r.askDue) } } }
        else if s.arbiter.inFlight = some .resend then
          { u with
            publication := { s.publication with
              replay := s.publication.replay ||| IndexSet.ofList s.publication.resendFlight, resendFlight := [] }
            arbiter := { u.arbiter with
              wants := { s.arbiter.wants with
                resend := decide (s.publication.replay ||| IndexSet.ofList s.publication.resendFlight ≠ 0) } } }
        else u)) →
      (∃ w, s.arbiter.inFlight = some w ∧ w ∈ [Want.ask, .beacon, .hello, .resend]) →
      (s.line.drive = .sending frame → s.line.condition = .busy → (∀ a ∈ s.frame.assembly, a.bits.length < 11) →
        exec .lost s = .next (returned lost)) ∧
      (s.line.drive = .breaking → s.arbiter.failures < 7 → exec .failed s = .next (returned failed))

/-- A bit error hands over the mismatched cell as the own frame's last and makes the station drive tBRK; cells of
another frame may follow; the release is FAILED. Of any of the six wants, the eighth consecutive FAILED sets
LINE_TROUBLE and enters LISTENING(LINE_TROUBLE), which meets a pending withdraw; any earlier outcome, COMPLETED, LOST
or FAILED, is taken as without a withdraw and then carries a pending one out; COMPLETED comes on a line of any condition,
LOST on a BUSY one (R139 to R141, R154 to R158, R170, R171). The drive that goes on unheard is the model's (log 9). -/
def Obligations.BitErrorFailsAndTheEighthListens : Prop :=
  ∀ s : State,
    (∀ frame cells, s.line.drive = .sending frame ∨ s.line.drive = .unheard frame →
      exec (.bitError cells) s = .next
        (({ (s.takeCells (cells.take 1)) with line := { s.line with drive := .breaking } } : State).takeCells
          (cells.drop 1))) ∧
    ∀ (w : Want) (n : Station) (calm : State) (listening : Cause → State → State), s.arbiter.inFlight = some w →
      s.control.station = some n →
      calm = { s with control := { s.control with withdrawPending := false } } →
      (∀ cause t, listening cause t = { t with
        control := { t.control with
          state := .listening cause
          withdrawPending := false
          lineTroubleCount := 0
          joinTimer := t.control.joinTimer.hold
          helloHold := .stopped
          faults := { t.control.faults with
            lineTrouble := t.control.faults.lineTrouble || decide (cause = .lineTrouble) } }
        publication := { t.publication with
          publishTimer := t.publication.publishTimer.hold
          beaconTimer := t.publication.beaconTimer.hold }
        peers := { t.peers with
          records := t.peers.records.map (fun r => { r with recallWait := r.recallWait.hold }) }
        arbiter := { t.arbiter with failures := 0 }
        notices := t.notices.offer ⟨.state n (.listening cause), t.control.clock⟩ }) →
      (∀ frame, s.line.drive = .sending frame ∨ s.line.drive = .unheard frame →
        (∃ t, exec .completed calm = .next t ∧
          exec .completed s = .next (if s.control.withdrawPending = true then listening .command t else t)) ∧
        (s.line.drive = .sending frame → s.line.condition = .busy → (∀ a ∈ s.frame.assembly, a.bits.length < 11) →
          ∃ t, exec .lost calm = .next t ∧
            exec .lost s = .next (if s.control.withdrawPending = true then listening .command t else t))) ∧
      (s.line.drive = .breaking →
        ∃ t, exec .failed { calm with arbiter := { s.arbiter with failures := 0 } } = .next t ∧
          t.arbiter.inFlight = none ∧ t.line.drive = .idle ∧
          t.arbiter.txFail = (if s.arbiter.txFail = 65535 then 65535 else s.arbiter.txFail + 1) ∧
          exec .failed s = .next
            (if 7 ≤ s.arbiter.failures then listening .lineTrouble t
            else if s.control.withdrawPending = true then listening .command t
            else { t with arbiter := { t.arbiter with failures := s.arbiter.failures + 1 } }))

/-! ### Timers and the clock -/

/-- A publish timer expiry reloads the interval and opens a round, with its want, exactly when the Publish Set is not
empty and no round is open; a beacon timer expiry stops the timer and raises BEACON, as does a hello hold expiry. The
millisecond clock advances by one, wrapping, and an entry whose age then reaches 65535 is marked age saturated, and
nothing else changes (R18, R31, R44, R45, R169, R179). That an expiry is a command, taken only at a timer with no time
left and changing nothing elsewhere, is the model's choice (log 3 and 4). -/
def Obligations.PublicationTimersAndClock : Prop :=
  (∀ s : State,
    (s.publication.publishTimer = .running 0 →
      exec .publishTimerExpiry s = .next
        (if s.publication.publishSet ≠ [] ∧ s.publication.round = .closed then
          { s with
            publication := { s.publication with
              publishTimer := .running (16000 * s.control.timing.interval.ms), round := .opened 0 }
            arbiter := { s.arbiter with wants := { s.arbiter.wants with routine := true } } }
        else
          { s with
            publication := { s.publication with
              publishTimer := .running (16000 * s.control.timing.interval.ms) } })) ∧
    (s.publication.beaconTimer = .running 0 →
      exec .beaconTimerExpiry s = .next
        { s with
          publication := { s.publication with beaconTimer := .stopped }
          arbiter := { s.arbiter with wants := { s.arbiter.wants with beacon := true } } }) ∧
    (s.control.helloHold = .running 0 →
      exec .helloHoldExpiry s = .next
        { s with
          control := { s.control with helloHold := .stopped }
          arbiter := { s.arbiter with wants := { s.arbiter.wants with beacon := true } } }) ∧
    (s.publication.publishTimer ≠ .running 0 → exec .publishTimerExpiry s = .next s) ∧
    (s.publication.beaconTimer ≠ .running 0 → exec .beaconTimerExpiry s = .next s) ∧
    (s.control.helloHold ≠ .running 0 → exec .helloHoldExpiry s = .next s)) ∧
  (∀ s : State,
     exec .millisecondClockAdvance s = .next
       { s with
         control := { s.control with clock := s.control.clock + 1 }
         points := { s.points with
           mirrored := s.points.mirrored.map (fun e =>
             { e with ageSaturated := e.ageSaturated || decide (s.control.clock + 1 - e.time = 65535) }) } })

/-- The silence expiry of a LIVE or RECOVERING record makes it SILENT with its recall emptied, its entries STALE, an
own ASK to it disowned and the loss limit of five beacon periods running; that of a SILENT record makes it LOST, at
the tail of the loss list. A frame that is taken first restarts the timer, and the expiry then does not happen (R66 to
R69, R74, R78). That an expiry is a command, taken only at a timer with no time left and changing nothing elsewhere,
is the model's choice (log 3 and 4). -/
def Obligations.SilenceMakesSilentThenLost : Prop :=
  ∀ (s : State) (n : Station),
    (∀ r limit, s.peers.find? n = some r → r.silence = .running limit 0 →
      ((r.state = .live ∨ r.state = .recovering) →
        ∃ u w, exec (.silenceTimerExpiry n) s = .next
            { s with
              points := { s.points with
                mirrored := s.points.mirrored.map (fun m =>
                  if m.key.station = n then { m with state := .stale } else m) }
              peers := u
              arbiter := { s.arbiter with wants := { s.arbiter.wants with ask := w } }
              notices := s.notices.offer ⟨.peer .silent n, s.control.clock⟩ } ∧
          w = (u.records.any (fun x => x.askDue) && s.peers.asking.isNone) ∧
          u.lossList = s.peers.lossList ∧
          u.asking = s.peers.asking.map (fun a => { a with owned := a.owned && decide (a.target ≠ n) }) ∧
          (∀ m, m ≠ n → u.find? m = s.peers.find? m) ∧
          u.find? n = some
            { r with
              state := .silent
              need := 0
              covered := 0
              askDue := false
              attempts := 0
              recallWait := .stopped
              silence := .running .loss (16000 * (5 * (match r.period with
                | some p => 2 * p.toNat
                | none => s.control.timing.interval.ms * s.control.timing.multiple.times))) }) ∧
      (r.state = .silent →
        ∃ u, exec (.silenceTimerExpiry n) s = .next
            { s with peers := u, notices := s.notices.offer ⟨.peer .lost n, s.control.clock⟩ } ∧
          u.lossList = s.peers.lossList ++ [n] ∧ u.asking = s.peers.asking ∧
          (∀ m, m ≠ n → u.find? m = s.peers.find? m) ∧
          u.find? n = some { r with state := .lost, silence := .stopped })) ∧
    (∀ r, s.peers.find? n = some r → (∀ limit, r.silence ≠ .running limit 0) →
      exec (.silenceTimerExpiry n) s = .next s) ∧
    (∀ (r : PeerRecord) (f : Frame), s.peers.find? n = some r → f.sender = n →
      (∀ p ∈ f.body.period, p ≠ 0) → (∀ p ∈ r.period, p ≠ 0) →
      exec (.silenceTimerExpiry n) (s.hear f) = .next (s.hear f)) ∧
    (s.peers.find? n = none → exec (.silenceTimerExpiry n) s = .next s)

/-- A recall-wait expiry below three attempts makes the ASK due again; after three the recall fails: the needed
entries become STALE, the record LIVE with its recall emptied, and RECALL_FAILED is offered (R24, R83, R84). A timer
that has been stopped, held or restarted meanwhile does not expire (R85; an expiry acts with no time left alone, log 3
and 4). -/
def Obligations.RecallWaitAsksAgainThenFails : Prop :=
  ∀ (s : State) (n : Station) (r : PeerRecord), s.peers.find? n = some r →
    (r.recallWait ≠ .running 0 → exec (.recallWaitExpiry n) s = .next s) ∧
    (r.recallWait = .running 0 → r.attempts < 3 →
      ∃ u, exec (.recallWaitExpiry n) s = .next
          { s with
            peers := u
            arbiter := { s.arbiter with wants := { s.arbiter.wants with ask := s.peers.asking.isNone } } } ∧
        u.lossList = s.peers.lossList ∧ u.asking = s.peers.asking ∧ (∀ m, m ≠ n → u.find? m = s.peers.find? m) ∧
        u.find? n = some { r with askDue := true, recallWait := .stopped }) ∧
    (r.recallWait = .running 0 → 3 ≤ r.attempts →
      ∃ u w, exec (.recallWaitExpiry n) s = .next
          { s with
            points := { s.points with
              mirrored := s.points.mirrored.map (fun m =>
                if m.key.station = n ∧ r.need.getLsbD m.key.index.toNat = true then { m with state := .stale } else m) }
            peers := u
            arbiter := { s.arbiter with wants := { s.arbiter.wants with ask := w } }
            notices := s.notices.offer ⟨.peer .recallFailed n, s.control.clock⟩ } ∧
        w = (u.records.any (fun x => x.askDue) && s.peers.asking.isNone) ∧
        u.lossList = s.peers.lossList ∧ u.asking = s.peers.asking ∧ (∀ m, m ≠ n → u.find? m = s.peers.find? m) ∧
        u.find? n = some
          { r with
            state := .live
            need := 0
            covered := 0
            askDue := false
            attempts := 0
            recallWait := .stopped
            beaconWanted := false })

/-- The join recall: each LIVE or RECOVERING record with interest takes as its need what of its bounded interest has
no VALID entry; a need begins a recall afresh, an empty one completes a recovery with RECALL_DONE. The join expiry
takes it, and the station is then IN_SERVICE with a STATE notice (R64, R78, R168). That the order of the RECALL_DONE
notices is free (log 14), and that the expiry is a command taken with no time left alone (log 3 and 4), is the
model's. -/
def Obligations.JoinExpiryRecallsWhatIsMissing : Prop :=
  ∀ (s : State) (need : PeerRecord → IndexSet) (joins : PeerRecord → Bool),
    tableSorted (fun r : PeerRecord => r.station.toNat) s.peers.records →
    (∀ r i, IndexSet.mem (need r) i = true ↔
      IndexSet.mem r.interest i = true ∧ (∀ p ∈ r.published, IndexSet.mem p i = true) ∧
        ∀ e ∈ s.points.mirrored, e.key = ⟨r.station, i⟩ → e.state ≠ .valid) →
    (∀ r, joins r = (decide (r.state = .live ∨ r.state = .recovering) && decide (r.interest ≠ 0))) →
    (s.control.joinTimer ≠ .running 0 → exec .joinExpiry s = .next s) ∧
    ∃ (records : List PeerRecord) (done order : List Station),
      records = s.peers.records.map (fun r =>
        if joins r = true ∧ need r ≠ 0 then
          { r with
            state := .recovering, need := need r, covered := 0, attempts := 0, recallWait := .stopped, askDue := true }
        else if joins r = true ∧ r.state = .recovering then
          { r with
            state := .live
            need := 0
            covered := 0
            attempts := 0
            recallWait := .stopped
            askDue := false
            beaconWanted := false }
        else r) ∧
      done = (s.peers.records.filter (fun r =>
        joins r && decide (need r = 0 ∧ r.state = .recovering))).map (fun r => r.station) ∧
      order.Perm done ∧
      s.joinRecall =
        { s with
          peers := { s.peers with
            records := records
            asking := s.peers.asking.map (fun a => { a with owned := a.owned && decide (a.target ∉ done) }) }
          arbiter := { s.arbiter with
            wants := { s.arbiter.wants with
              ask := records.any (fun r => r.askDue) && s.peers.asking.isNone } }
          notices := order.foldl (fun u m => u.offer ⟨.peer .recallDone m, s.control.clock⟩) s.notices
          freeCount := s.freeCount + 1 } ∧
      ∀ n, s.control.station = some n → s.control.joinTimer = .running 0 →
        exec .joinExpiry s = .next
          { s.joinRecall with
            control := { s.control with state := .inService, joinTimer := .stopped }
            notices := s.joinRecall.notices.offer ⟨.state n .inService, s.control.clock⟩ }

/-! ### What every step keeps -/

/-- Every step keeps the Notice Queue at most 32 long with one change record for a key, the overflow marker over a
full queue alone, the transaction in the form of its phase, and the head marked as taken exactly while the port
returns an accepted TAKE_NOTICE, whose response has nine bytes (R101, R103, R105 to R110, R180, R182, R197). -/
def Obligations.StepKeepsNoticesAndPort : Prop :=
  ∀ s t : State, s.notices.wf → s.portWf → step s = .next t → t.notices.wf ∧ t.portWf

/-- Every step keeps the relation of frame in flight, drive, owners and frame under assembly, and that of the station
state to its mark, its count and its timers; and a command whose argument bytes are being collected stays in its class,
since nothing but COMMIT and cold reset changes that (R37, R72, R90, R119, R124, R135, R137, R142, R143, R145, R150,
R153, R157, R162, R166, R167, R169 to R172, R181, R184). That a frame under assembly past its arbitration field is the
own one during a flight is read from R124 and R151 (log 7). -/
def Obligations.StepKeepsFlightAndStation : Prop :=
  ∀ s t : State, s.flightWf → s.stationWf → s.collectingWf → step s = .next t →
    t.flightWf ∧ t.stationWf ∧ t.collectingWf

/-- Every step keeps the sets of the publication unit to declared and published indexes, and its three wants at what
the sets and the round make them (R30, R32, R35, R37, R42, R90, R91). -/
def Obligations.StepKeepsPublicationAndWants : Prop :=
  ∀ s t : State, s.flightWf → s.publicationWf → s.wantsWf → step s = .next t → t.publicationWf ∧ t.wantsWf

/-- No step forgets a write: an own point whose current value is not its published one waits in the Publish Set or is
in flight, through losses, failures, restarts and LISTENING (R29, R30, R37 to R39, R48). -/
def Obligations.StepForgetsNoOwnValue : Prop :=
  ∀ s t : State, s.flightWf → s.publicationWf → s.nothingForgotten → step s = .next t → t.nothingForgotten

/-- Every step keeps the Peer Table's form and the laws of its records: a record is RECOVERING exactly while its need
is not empty, its need stays within its bounded interest, ASK due and attempts keep their bounds, the silence timer
runs as the record's state has it, the loss list names the LOST stations, and the ASK want follows the records (R49,
R52, R53, R66, R67, R72, R74, R84, R88). That a due ASK asks for something also during its flight is more than R72
says: it rests on no frame being judged during a flight, which is the model's reading (log 7). -/
def Obligations.StepKeepsPeerLaws : Prop :=
  ∀ s t : State, s.flightWf → s.stationWf → s.collectingWf → s.peersWf → step s = .next t → t.peersWf

/-- Every step keeps at most 256 entries, the mirrored ones each of interest to a record of their owner, and STALE
while that peer is SILENT or LOST (R2, R6, R11, R52, R55). -/
def Obligations.StepKeepsMirrorsOwned : Prop :=
  ∀ s t : State, s.flightWf → s.stationWf → s.collectingWf → s.publicationWf → s.peersWf → s.mirrorsWf →
    step s = .next t → t.mirrorsWf
end

