-- ==== Sys2Proof/Laws/State.lean ====
section
/-! SUPPORT. Laws/State.lean: for each update of State, what it does to each field, by rfl. -/

namespace Sys2Proof.Machine

open Sys2Proof

/-! ### Whole blocks -/

@[simp] theorem State.setControl_control (s : State) (x : Control) : (s.setControl x).control = x := rfl
@[simp] theorem State.setControl_line (s : State) (x : Control) : (s.setControl x).line = s.line := rfl
@[simp] theorem State.setControl_frame (s : State) (x : Control) : (s.setControl x).frame = s.frame := rfl
@[simp] theorem State.setControl_arbiter (s : State) (x : Control) : (s.setControl x).arbiter = s.arbiter := rfl
@[simp] theorem State.setControl_points (s : State) (x : Control) : (s.setControl x).points = s.points := rfl
@[simp] theorem State.setControl_publication (s : State) (x : Control) : (s.setControl x).publication = s.publication := rfl
@[simp] theorem State.setControl_peers (s : State) (x : Control) : (s.setControl x).peers = s.peers := rfl
@[simp] theorem State.setControl_notices (s : State) (x : Control) : (s.setControl x).notices = s.notices := rfl
@[simp] theorem State.setControl_port (s : State) (x : Control) : (s.setControl x).port = s.port := rfl
@[simp] theorem State.setControl_freeCount (s : State) (x : Control) : (s.setControl x).freeCount = s.freeCount := rfl
@[simp] theorem State.setControl_pending (s : State) (x : Control) : (s.setControl x).pending = s.pending := rfl
@[simp] theorem State.setControl_setControl (s : State) (x y : Control) : (s.setControl x).setControl y = s.setControl y := rfl
@[simp] theorem State.setControl_self (s : State) : s.setControl s.control = s := rfl

@[simp] theorem State.setLine_control (s : State) (x : LineInterface) : (s.setLine x).control = s.control := rfl
@[simp] theorem State.setLine_line (s : State) (x : LineInterface) : (s.setLine x).line = x := rfl
@[simp] theorem State.setLine_frame (s : State) (x : LineInterface) : (s.setLine x).frame = s.frame := rfl
@[simp] theorem State.setLine_arbiter (s : State) (x : LineInterface) : (s.setLine x).arbiter = s.arbiter := rfl
@[simp] theorem State.setLine_points (s : State) (x : LineInterface) : (s.setLine x).points = s.points := rfl
@[simp] theorem State.setLine_publication (s : State) (x : LineInterface) : (s.setLine x).publication = s.publication := rfl
@[simp] theorem State.setLine_peers (s : State) (x : LineInterface) : (s.setLine x).peers = s.peers := rfl
@[simp] theorem State.setLine_notices (s : State) (x : LineInterface) : (s.setLine x).notices = s.notices := rfl
@[simp] theorem State.setLine_port (s : State) (x : LineInterface) : (s.setLine x).port = s.port := rfl
@[simp] theorem State.setLine_freeCount (s : State) (x : LineInterface) : (s.setLine x).freeCount = s.freeCount := rfl
@[simp] theorem State.setLine_pending (s : State) (x : LineInterface) : (s.setLine x).pending = s.pending := rfl
@[simp] theorem State.setLine_setLine (s : State) (x y : LineInterface) : (s.setLine x).setLine y = s.setLine y := rfl
@[simp] theorem State.setLine_self (s : State) : s.setLine s.line = s := rfl

@[simp] theorem State.setFrame_control (s : State) (x : FrameUnit) : (s.setFrame x).control = s.control := rfl
@[simp] theorem State.setFrame_line (s : State) (x : FrameUnit) : (s.setFrame x).line = s.line := rfl
@[simp] theorem State.setFrame_frame (s : State) (x : FrameUnit) : (s.setFrame x).frame = x := rfl
@[simp] theorem State.setFrame_arbiter (s : State) (x : FrameUnit) : (s.setFrame x).arbiter = s.arbiter := rfl
@[simp] theorem State.setFrame_points (s : State) (x : FrameUnit) : (s.setFrame x).points = s.points := rfl
@[simp] theorem State.setFrame_publication (s : State) (x : FrameUnit) : (s.setFrame x).publication = s.publication := rfl
@[simp] theorem State.setFrame_peers (s : State) (x : FrameUnit) : (s.setFrame x).peers = s.peers := rfl
@[simp] theorem State.setFrame_notices (s : State) (x : FrameUnit) : (s.setFrame x).notices = s.notices := rfl
@[simp] theorem State.setFrame_port (s : State) (x : FrameUnit) : (s.setFrame x).port = s.port := rfl
@[simp] theorem State.setFrame_freeCount (s : State) (x : FrameUnit) : (s.setFrame x).freeCount = s.freeCount := rfl
@[simp] theorem State.setFrame_pending (s : State) (x : FrameUnit) : (s.setFrame x).pending = s.pending := rfl
@[simp] theorem State.setFrame_setFrame (s : State) (x y : FrameUnit) : (s.setFrame x).setFrame y = s.setFrame y := rfl
@[simp] theorem State.setFrame_self (s : State) : s.setFrame s.frame = s := rfl

@[simp] theorem State.setArbiter_control (s : State) (x : Arbiter) : (s.setArbiter x).control = s.control := rfl
@[simp] theorem State.setArbiter_line (s : State) (x : Arbiter) : (s.setArbiter x).line = s.line := rfl
@[simp] theorem State.setArbiter_frame (s : State) (x : Arbiter) : (s.setArbiter x).frame = s.frame := rfl
@[simp] theorem State.setArbiter_arbiter (s : State) (x : Arbiter) : (s.setArbiter x).arbiter = x := rfl
@[simp] theorem State.setArbiter_points (s : State) (x : Arbiter) : (s.setArbiter x).points = s.points := rfl
@[simp] theorem State.setArbiter_publication (s : State) (x : Arbiter) : (s.setArbiter x).publication = s.publication := rfl
@[simp] theorem State.setArbiter_peers (s : State) (x : Arbiter) : (s.setArbiter x).peers = s.peers := rfl
@[simp] theorem State.setArbiter_notices (s : State) (x : Arbiter) : (s.setArbiter x).notices = s.notices := rfl
@[simp] theorem State.setArbiter_port (s : State) (x : Arbiter) : (s.setArbiter x).port = s.port := rfl
@[simp] theorem State.setArbiter_freeCount (s : State) (x : Arbiter) : (s.setArbiter x).freeCount = s.freeCount := rfl
@[simp] theorem State.setArbiter_pending (s : State) (x : Arbiter) : (s.setArbiter x).pending = s.pending := rfl
@[simp] theorem State.setArbiter_setArbiter (s : State) (x y : Arbiter) : (s.setArbiter x).setArbiter y = s.setArbiter y := rfl
@[simp] theorem State.setArbiter_self (s : State) : s.setArbiter s.arbiter = s := rfl

@[simp] theorem State.setPoints_control (s : State) (x : PointTable) : (s.setPoints x).control = s.control := rfl
@[simp] theorem State.setPoints_line (s : State) (x : PointTable) : (s.setPoints x).line = s.line := rfl
@[simp] theorem State.setPoints_frame (s : State) (x : PointTable) : (s.setPoints x).frame = s.frame := rfl
@[simp] theorem State.setPoints_arbiter (s : State) (x : PointTable) : (s.setPoints x).arbiter = s.arbiter := rfl
@[simp] theorem State.setPoints_points (s : State) (x : PointTable) : (s.setPoints x).points = x := rfl
@[simp] theorem State.setPoints_publication (s : State) (x : PointTable) : (s.setPoints x).publication = s.publication := rfl
@[simp] theorem State.setPoints_peers (s : State) (x : PointTable) : (s.setPoints x).peers = s.peers := rfl
@[simp] theorem State.setPoints_notices (s : State) (x : PointTable) : (s.setPoints x).notices = s.notices := rfl
@[simp] theorem State.setPoints_port (s : State) (x : PointTable) : (s.setPoints x).port = s.port := rfl
@[simp] theorem State.setPoints_freeCount (s : State) (x : PointTable) : (s.setPoints x).freeCount = s.freeCount := rfl
@[simp] theorem State.setPoints_pending (s : State) (x : PointTable) : (s.setPoints x).pending = s.pending := rfl
@[simp] theorem State.setPoints_setPoints (s : State) (x y : PointTable) : (s.setPoints x).setPoints y = s.setPoints y := rfl
@[simp] theorem State.setPoints_self (s : State) : s.setPoints s.points = s := rfl

@[simp] theorem State.setPublication_control (s : State) (x : Publication) : (s.setPublication x).control = s.control := rfl
@[simp] theorem State.setPublication_line (s : State) (x : Publication) : (s.setPublication x).line = s.line := rfl
@[simp] theorem State.setPublication_frame (s : State) (x : Publication) : (s.setPublication x).frame = s.frame := rfl
@[simp] theorem State.setPublication_arbiter (s : State) (x : Publication) : (s.setPublication x).arbiter = s.arbiter := rfl
@[simp] theorem State.setPublication_points (s : State) (x : Publication) : (s.setPublication x).points = s.points := rfl
@[simp] theorem State.setPublication_publication (s : State) (x : Publication) : (s.setPublication x).publication = x := rfl
@[simp] theorem State.setPublication_peers (s : State) (x : Publication) : (s.setPublication x).peers = s.peers := rfl
@[simp] theorem State.setPublication_notices (s : State) (x : Publication) : (s.setPublication x).notices = s.notices := rfl
@[simp] theorem State.setPublication_port (s : State) (x : Publication) : (s.setPublication x).port = s.port := rfl
@[simp] theorem State.setPublication_freeCount (s : State) (x : Publication) : (s.setPublication x).freeCount = s.freeCount := rfl
@[simp] theorem State.setPublication_pending (s : State) (x : Publication) : (s.setPublication x).pending = s.pending := rfl
@[simp] theorem State.setPublication_setPublication (s : State) (x y : Publication) : (s.setPublication x).setPublication y = s.setPublication y := rfl
@[simp] theorem State.setPublication_self (s : State) : s.setPublication s.publication = s := rfl

@[simp] theorem State.setPeers_control (s : State) (x : PeerUnit) : (s.setPeers x).control = s.control := rfl
@[simp] theorem State.setPeers_line (s : State) (x : PeerUnit) : (s.setPeers x).line = s.line := rfl
@[simp] theorem State.setPeers_frame (s : State) (x : PeerUnit) : (s.setPeers x).frame = s.frame := rfl
@[simp] theorem State.setPeers_arbiter (s : State) (x : PeerUnit) : (s.setPeers x).arbiter = s.arbiter := rfl
@[simp] theorem State.setPeers_points (s : State) (x : PeerUnit) : (s.setPeers x).points = s.points := rfl
@[simp] theorem State.setPeers_publication (s : State) (x : PeerUnit) : (s.setPeers x).publication = s.publication := rfl
@[simp] theorem State.setPeers_peers (s : State) (x : PeerUnit) : (s.setPeers x).peers = x := rfl
@[simp] theorem State.setPeers_notices (s : State) (x : PeerUnit) : (s.setPeers x).notices = s.notices := rfl
@[simp] theorem State.setPeers_port (s : State) (x : PeerUnit) : (s.setPeers x).port = s.port := rfl
@[simp] theorem State.setPeers_freeCount (s : State) (x : PeerUnit) : (s.setPeers x).freeCount = s.freeCount := rfl
@[simp] theorem State.setPeers_pending (s : State) (x : PeerUnit) : (s.setPeers x).pending = s.pending := rfl
@[simp] theorem State.setPeers_setPeers (s : State) (x y : PeerUnit) : (s.setPeers x).setPeers y = s.setPeers y := rfl
@[simp] theorem State.setPeers_self (s : State) : s.setPeers s.peers = s := rfl

@[simp] theorem State.setNotices_control (s : State) (x : NoticeUnit) : (s.setNotices x).control = s.control := rfl
@[simp] theorem State.setNotices_line (s : State) (x : NoticeUnit) : (s.setNotices x).line = s.line := rfl
@[simp] theorem State.setNotices_frame (s : State) (x : NoticeUnit) : (s.setNotices x).frame = s.frame := rfl
@[simp] theorem State.setNotices_arbiter (s : State) (x : NoticeUnit) : (s.setNotices x).arbiter = s.arbiter := rfl
@[simp] theorem State.setNotices_points (s : State) (x : NoticeUnit) : (s.setNotices x).points = s.points := rfl
@[simp] theorem State.setNotices_publication (s : State) (x : NoticeUnit) : (s.setNotices x).publication = s.publication := rfl
@[simp] theorem State.setNotices_peers (s : State) (x : NoticeUnit) : (s.setNotices x).peers = s.peers := rfl
@[simp] theorem State.setNotices_notices (s : State) (x : NoticeUnit) : (s.setNotices x).notices = x := rfl
@[simp] theorem State.setNotices_port (s : State) (x : NoticeUnit) : (s.setNotices x).port = s.port := rfl
@[simp] theorem State.setNotices_freeCount (s : State) (x : NoticeUnit) : (s.setNotices x).freeCount = s.freeCount := rfl
@[simp] theorem State.setNotices_pending (s : State) (x : NoticeUnit) : (s.setNotices x).pending = s.pending := rfl
@[simp] theorem State.setNotices_setNotices (s : State) (x y : NoticeUnit) : (s.setNotices x).setNotices y = s.setNotices y := rfl
@[simp] theorem State.setNotices_self (s : State) : s.setNotices s.notices = s := rfl

@[simp] theorem State.setPort_control (s : State) (x : Port) : (s.setPort x).control = s.control := rfl
@[simp] theorem State.setPort_line (s : State) (x : Port) : (s.setPort x).line = s.line := rfl
@[simp] theorem State.setPort_frame (s : State) (x : Port) : (s.setPort x).frame = s.frame := rfl
@[simp] theorem State.setPort_arbiter (s : State) (x : Port) : (s.setPort x).arbiter = s.arbiter := rfl
@[simp] theorem State.setPort_points (s : State) (x : Port) : (s.setPort x).points = s.points := rfl
@[simp] theorem State.setPort_publication (s : State) (x : Port) : (s.setPort x).publication = s.publication := rfl
@[simp] theorem State.setPort_peers (s : State) (x : Port) : (s.setPort x).peers = s.peers := rfl
@[simp] theorem State.setPort_notices (s : State) (x : Port) : (s.setPort x).notices = s.notices := rfl
@[simp] theorem State.setPort_port (s : State) (x : Port) : (s.setPort x).port = x := rfl
@[simp] theorem State.setPort_freeCount (s : State) (x : Port) : (s.setPort x).freeCount = s.freeCount := rfl
@[simp] theorem State.setPort_pending (s : State) (x : Port) : (s.setPort x).pending = s.pending := rfl
@[simp] theorem State.setPort_setPort (s : State) (x y : Port) : (s.setPort x).setPort y = s.setPort y := rfl
@[simp] theorem State.setPort_self (s : State) : s.setPort s.port = s := rfl

@[simp] theorem State.bumpFree_control (s : State) : s.bumpFree.control = s.control := rfl
@[simp] theorem State.bumpFree_line (s : State) : s.bumpFree.line = s.line := rfl
@[simp] theorem State.bumpFree_frame (s : State) : s.bumpFree.frame = s.frame := rfl
@[simp] theorem State.bumpFree_arbiter (s : State) : s.bumpFree.arbiter = s.arbiter := rfl
@[simp] theorem State.bumpFree_points (s : State) : s.bumpFree.points = s.points := rfl
@[simp] theorem State.bumpFree_publication (s : State) : s.bumpFree.publication = s.publication := rfl
@[simp] theorem State.bumpFree_peers (s : State) : s.bumpFree.peers = s.peers := rfl
@[simp] theorem State.bumpFree_notices (s : State) : s.bumpFree.notices = s.notices := rfl
@[simp] theorem State.bumpFree_port (s : State) : s.bumpFree.port = s.port := rfl
@[simp] theorem State.bumpFree_freeCount (s : State) : s.bumpFree.freeCount = s.freeCount + 1 := rfl
@[simp] theorem State.bumpFree_pending (s : State) : s.bumpFree.pending = s.pending := rfl

/-! ### Parts of a block -/

@[simp] theorem State.setWant_control (s : State) (k : Want) (b : Bool) : (s.setWant k b).control = s.control := rfl
@[simp] theorem State.setWant_line (s : State) (k : Want) (b : Bool) : (s.setWant k b).line = s.line := rfl
@[simp] theorem State.setWant_frame (s : State) (k : Want) (b : Bool) : (s.setWant k b).frame = s.frame := rfl
@[simp] theorem State.setWant_points (s : State) (k : Want) (b : Bool) : (s.setWant k b).points = s.points := rfl
@[simp] theorem State.setWant_publication (s : State) (k : Want) (b : Bool) : (s.setWant k b).publication = s.publication := rfl
@[simp] theorem State.setWant_peers (s : State) (k : Want) (b : Bool) : (s.setWant k b).peers = s.peers := rfl
@[simp] theorem State.setWant_notices (s : State) (k : Want) (b : Bool) : (s.setWant k b).notices = s.notices := rfl
@[simp] theorem State.setWant_port (s : State) (k : Want) (b : Bool) : (s.setWant k b).port = s.port := rfl
@[simp] theorem State.setWant_freeCount (s : State) (k : Want) (b : Bool) : (s.setWant k b).freeCount = s.freeCount := rfl
@[simp] theorem State.setWant_pending (s : State) (k : Want) (b : Bool) : (s.setWant k b).pending = s.pending := rfl
@[simp] theorem State.setWant_wants (s : State) (k : Want) (b : Bool) : (s.setWant k b).arbiter.wants = s.arbiter.wants.put k b := rfl
@[simp] theorem State.setWant_inFlight (s : State) (k : Want) (b : Bool) : (s.setWant k b).arbiter.inFlight = s.arbiter.inFlight := rfl
@[simp] theorem State.setWant_failures (s : State) (k : Want) (b : Bool) : (s.setWant k b).arbiter.failures = s.arbiter.failures := rfl
@[simp] theorem State.setWant_arbLost (s : State) (k : Want) (b : Bool) : (s.setWant k b).arbiter.arbLost = s.arbiter.arbLost := rfl
@[simp] theorem State.setWant_txFail (s : State) (k : Want) (b : Bool) : (s.setWant k b).arbiter.txFail = s.arbiter.txFail := rfl

@[simp] theorem State.setFaults_line (s : State) (f : FaultFlags) : (s.setFaults f).line = s.line := rfl
@[simp] theorem State.setFaults_frame (s : State) (f : FaultFlags) : (s.setFaults f).frame = s.frame := rfl
@[simp] theorem State.setFaults_arbiter (s : State) (f : FaultFlags) : (s.setFaults f).arbiter = s.arbiter := rfl
@[simp] theorem State.setFaults_points (s : State) (f : FaultFlags) : (s.setFaults f).points = s.points := rfl
@[simp] theorem State.setFaults_publication (s : State) (f : FaultFlags) : (s.setFaults f).publication = s.publication := rfl
@[simp] theorem State.setFaults_peers (s : State) (f : FaultFlags) : (s.setFaults f).peers = s.peers := rfl
@[simp] theorem State.setFaults_notices (s : State) (f : FaultFlags) : (s.setFaults f).notices = s.notices := rfl
@[simp] theorem State.setFaults_port (s : State) (f : FaultFlags) : (s.setFaults f).port = s.port := rfl
@[simp] theorem State.setFaults_freeCount (s : State) (f : FaultFlags) : (s.setFaults f).freeCount = s.freeCount := rfl
@[simp] theorem State.setFaults_pending (s : State) (f : FaultFlags) : (s.setFaults f).pending = s.pending := rfl
@[simp] theorem State.setFaults_faults (s : State) (f : FaultFlags) : (s.setFaults f).control.faults = f := rfl
@[simp] theorem State.setFaults_state (s : State) (f : FaultFlags) : (s.setFaults f).control.state = s.control.state := rfl
@[simp] theorem State.setFaults_helloDone (s : State) (f : FaultFlags) : (s.setFaults f).control.helloDone = s.control.helloDone := rfl
@[simp] theorem State.setFaults_withdrawPending (s : State) (f : FaultFlags) : (s.setFaults f).control.withdrawPending = s.control.withdrawPending := rfl
@[simp] theorem State.setFaults_lineTroubleCount (s : State) (f : FaultFlags) : (s.setFaults f).control.lineTroubleCount = s.control.lineTroubleCount := rfl
@[simp] theorem State.setFaults_station (s : State) (f : FaultFlags) : (s.setFaults f).control.station = s.control.station := rfl
@[simp] theorem State.setFaults_epoch (s : State) (f : FaultFlags) : (s.setFaults f).control.epoch = s.control.epoch := rfl
@[simp] theorem State.setFaults_timing (s : State) (f : FaultFlags) : (s.setFaults f).control.timing = s.control.timing := rfl
@[simp] theorem State.setFaults_clock (s : State) (f : FaultFlags) : (s.setFaults f).control.clock = s.control.clock := rfl
@[simp] theorem State.setFaults_joinTimer (s : State) (f : FaultFlags) : (s.setFaults f).control.joinTimer = s.control.joinTimer := rfl
@[simp] theorem State.setFaults_helloHold (s : State) (f : FaultFlags) : (s.setFaults f).control.helloHold = s.control.helloHold := rfl

@[simp] theorem State.setAssembly_control (s : State) (a : Option Assembly) : (s.setAssembly a).control = s.control := rfl
@[simp] theorem State.setAssembly_line (s : State) (a : Option Assembly) : (s.setAssembly a).line = s.line := rfl
@[simp] theorem State.setAssembly_arbiter (s : State) (a : Option Assembly) : (s.setAssembly a).arbiter = s.arbiter := rfl
@[simp] theorem State.setAssembly_points (s : State) (a : Option Assembly) : (s.setAssembly a).points = s.points := rfl
@[simp] theorem State.setAssembly_publication (s : State) (a : Option Assembly) : (s.setAssembly a).publication = s.publication := rfl
@[simp] theorem State.setAssembly_peers (s : State) (a : Option Assembly) : (s.setAssembly a).peers = s.peers := rfl
@[simp] theorem State.setAssembly_notices (s : State) (a : Option Assembly) : (s.setAssembly a).notices = s.notices := rfl
@[simp] theorem State.setAssembly_port (s : State) (a : Option Assembly) : (s.setAssembly a).port = s.port := rfl
@[simp] theorem State.setAssembly_freeCount (s : State) (a : Option Assembly) : (s.setAssembly a).freeCount = s.freeCount := rfl
@[simp] theorem State.setAssembly_pending (s : State) (a : Option Assembly) : (s.setAssembly a).pending = s.pending := rfl
@[simp] theorem State.setAssembly_assembly (s : State) (a : Option Assembly) : (s.setAssembly a).frame.assembly = a := rfl
@[simp] theorem State.setAssembly_good (s : State) (a : Option Assembly) : (s.setAssembly a).frame.good = s.frame.good := rfl
@[simp] theorem State.setAssembly_check (s : State) (a : Option Assembly) : (s.setAssembly a).frame.check = s.frame.check := rfl
@[simp] theorem State.setAssembly_cut (s : State) (a : Option Assembly) : (s.setAssembly a).frame.cut = s.frame.cut := rfl
@[simp] theorem State.setAssembly_format (s : State) (a : Option Assembly) : (s.setAssembly a).frame.format = s.frame.format := rfl

@[simp] theorem State.setCondition_control (s : State) (c : LineCondition) : (s.setCondition c).control = s.control := rfl
@[simp] theorem State.setCondition_frame (s : State) (c : LineCondition) : (s.setCondition c).frame = s.frame := rfl
@[simp] theorem State.setCondition_arbiter (s : State) (c : LineCondition) : (s.setCondition c).arbiter = s.arbiter := rfl
@[simp] theorem State.setCondition_points (s : State) (c : LineCondition) : (s.setCondition c).points = s.points := rfl
@[simp] theorem State.setCondition_publication (s : State) (c : LineCondition) : (s.setCondition c).publication = s.publication := rfl
@[simp] theorem State.setCondition_peers (s : State) (c : LineCondition) : (s.setCondition c).peers = s.peers := rfl
@[simp] theorem State.setCondition_notices (s : State) (c : LineCondition) : (s.setCondition c).notices = s.notices := rfl
@[simp] theorem State.setCondition_port (s : State) (c : LineCondition) : (s.setCondition c).port = s.port := rfl
@[simp] theorem State.setCondition_freeCount (s : State) (c : LineCondition) : (s.setCondition c).freeCount = s.freeCount := rfl
@[simp] theorem State.setCondition_pending (s : State) (c : LineCondition) : (s.setCondition c).pending = s.pending := rfl
@[simp] theorem State.setCondition_condition (s : State) (c : LineCondition) : (s.setCondition c).line.condition = c := rfl
@[simp] theorem State.setCondition_drive (s : State) (c : LineCondition) : (s.setCondition c).line.drive = s.line.drive := rfl
@[simp] theorem State.setCondition_early (s : State) (c : LineCondition) : (s.setCondition c).line.early = s.line.early := rfl

@[simp] theorem State.putMirror_control (s : State) (e : MirrorEntry) : (s.putMirror e).control = s.control := rfl
@[simp] theorem State.putMirror_line (s : State) (e : MirrorEntry) : (s.putMirror e).line = s.line := rfl
@[simp] theorem State.putMirror_frame (s : State) (e : MirrorEntry) : (s.putMirror e).frame = s.frame := rfl
@[simp] theorem State.putMirror_arbiter (s : State) (e : MirrorEntry) : (s.putMirror e).arbiter = s.arbiter := rfl
@[simp] theorem State.putMirror_publication (s : State) (e : MirrorEntry) : (s.putMirror e).publication = s.publication := rfl
@[simp] theorem State.putMirror_peers (s : State) (e : MirrorEntry) : (s.putMirror e).peers = s.peers := rfl
@[simp] theorem State.putMirror_notices (s : State) (e : MirrorEntry) : (s.putMirror e).notices = s.notices := rfl
@[simp] theorem State.putMirror_port (s : State) (e : MirrorEntry) : (s.putMirror e).port = s.port := rfl
@[simp] theorem State.putMirror_freeCount (s : State) (e : MirrorEntry) : (s.putMirror e).freeCount = s.freeCount := rfl
@[simp] theorem State.putMirror_pending (s : State) (e : MirrorEntry) : (s.putMirror e).pending = s.pending := rfl
@[simp] theorem State.putMirror_own (s : State) (e : MirrorEntry) : (s.putMirror e).points.own = s.points.own := rfl
@[simp] theorem State.putMirror_declarations (s : State) (e : MirrorEntry) : (s.putMirror e).points.declarations = s.points.declarations := rfl
@[simp] theorem State.putMirror_mirrored (s : State) (e : MirrorEntry) : (s.putMirror e).points.mirrored = tableInsert (fun e => e.key.rank) e s.points.mirrored := rfl

@[simp] theorem State.mapPeer_control (s : State) (n : Station) (f : PeerRecord → PeerRecord) : (s.mapPeer n f).control = s.control := rfl
@[simp] theorem State.mapPeer_line (s : State) (n : Station) (f : PeerRecord → PeerRecord) : (s.mapPeer n f).line = s.line := rfl
@[simp] theorem State.mapPeer_frame (s : State) (n : Station) (f : PeerRecord → PeerRecord) : (s.mapPeer n f).frame = s.frame := rfl
@[simp] theorem State.mapPeer_arbiter (s : State) (n : Station) (f : PeerRecord → PeerRecord) : (s.mapPeer n f).arbiter = s.arbiter := rfl
@[simp] theorem State.mapPeer_points (s : State) (n : Station) (f : PeerRecord → PeerRecord) : (s.mapPeer n f).points = s.points := rfl
@[simp] theorem State.mapPeer_publication (s : State) (n : Station) (f : PeerRecord → PeerRecord) : (s.mapPeer n f).publication = s.publication := rfl
@[simp] theorem State.mapPeer_notices (s : State) (n : Station) (f : PeerRecord → PeerRecord) : (s.mapPeer n f).notices = s.notices := rfl
@[simp] theorem State.mapPeer_port (s : State) (n : Station) (f : PeerRecord → PeerRecord) : (s.mapPeer n f).port = s.port := rfl
@[simp] theorem State.mapPeer_freeCount (s : State) (n : Station) (f : PeerRecord → PeerRecord) : (s.mapPeer n f).freeCount = s.freeCount := rfl
@[simp] theorem State.mapPeer_pending (s : State) (n : Station) (f : PeerRecord → PeerRecord) : (s.mapPeer n f).pending = s.pending := rfl
@[simp] theorem State.mapPeer_lossList (s : State) (n : Station) (f : PeerRecord → PeerRecord) : (s.mapPeer n f).peers.lossList = s.peers.lossList := rfl
@[simp] theorem State.mapPeer_asking (s : State) (n : Station) (f : PeerRecord → PeerRecord) : (s.mapPeer n f).peers.asking = s.peers.asking := rfl
@[simp] theorem State.mapPeer_records (s : State) (n : Station) (f : PeerRecord → PeerRecord) : (s.mapPeer n f).peers.records = s.peers.records.map (fun r => if r.station = n then f r else r) := rfl

@[simp] theorem State.disown_control (s : State) (n : Station) : (s.disown n).control = s.control := rfl
@[simp] theorem State.disown_line (s : State) (n : Station) : (s.disown n).line = s.line := rfl
@[simp] theorem State.disown_frame (s : State) (n : Station) : (s.disown n).frame = s.frame := rfl
@[simp] theorem State.disown_arbiter (s : State) (n : Station) : (s.disown n).arbiter = s.arbiter := rfl
@[simp] theorem State.disown_points (s : State) (n : Station) : (s.disown n).points = s.points := rfl
@[simp] theorem State.disown_publication (s : State) (n : Station) : (s.disown n).publication = s.publication := rfl
@[simp] theorem State.disown_notices (s : State) (n : Station) : (s.disown n).notices = s.notices := rfl
@[simp] theorem State.disown_port (s : State) (n : Station) : (s.disown n).port = s.port := rfl
@[simp] theorem State.disown_freeCount (s : State) (n : Station) : (s.disown n).freeCount = s.freeCount := rfl
@[simp] theorem State.disown_pending (s : State) (n : Station) : (s.disown n).pending = s.pending := rfl
@[simp] theorem State.disown_lossList (s : State) (n : Station) : (s.disown n).peers.lossList = s.peers.lossList := rfl
@[simp] theorem State.disown_records (s : State) (n : Station) : (s.disown n).peers.records = s.peers.records := rfl

@[simp] theorem State.emptyMarker_control (s : State) : (s.emptyMarker).control = s.control := rfl
@[simp] theorem State.emptyMarker_line (s : State) : (s.emptyMarker).line = s.line := rfl
@[simp] theorem State.emptyMarker_frame (s : State) : (s.emptyMarker).frame = s.frame := rfl
@[simp] theorem State.emptyMarker_arbiter (s : State) : (s.emptyMarker).arbiter = s.arbiter := rfl
@[simp] theorem State.emptyMarker_points (s : State) : (s.emptyMarker).points = s.points := rfl
@[simp] theorem State.emptyMarker_publication (s : State) : (s.emptyMarker).publication = s.publication := rfl
@[simp] theorem State.emptyMarker_notices (s : State) : (s.emptyMarker).notices = s.notices := rfl
@[simp] theorem State.emptyMarker_port (s : State) : (s.emptyMarker).port = s.port := rfl
@[simp] theorem State.emptyMarker_freeCount (s : State) : (s.emptyMarker).freeCount = s.freeCount := rfl
@[simp] theorem State.emptyMarker_pending (s : State) : (s.emptyMarker).pending = s.pending := rfl
@[simp] theorem State.emptyMarker_lossList (s : State) : s.emptyMarker.peers.lossList = s.peers.lossList := rfl
@[simp] theorem State.emptyMarker_records (s : State) : s.emptyMarker.peers.records = s.peers.records := rfl
@[simp] theorem State.emptyMarker_asking (s : State) : s.emptyMarker.peers.asking = none := rfl

@[simp] theorem State.offer_control (s : State) (b : NoticeBody) : (s.offer b).control = s.control := rfl
@[simp] theorem State.offer_line (s : State) (b : NoticeBody) : (s.offer b).line = s.line := rfl
@[simp] theorem State.offer_frame (s : State) (b : NoticeBody) : (s.offer b).frame = s.frame := rfl
@[simp] theorem State.offer_arbiter (s : State) (b : NoticeBody) : (s.offer b).arbiter = s.arbiter := rfl
@[simp] theorem State.offer_points (s : State) (b : NoticeBody) : (s.offer b).points = s.points := rfl
@[simp] theorem State.offer_publication (s : State) (b : NoticeBody) : (s.offer b).publication = s.publication := rfl
@[simp] theorem State.offer_peers (s : State) (b : NoticeBody) : (s.offer b).peers = s.peers := rfl
@[simp] theorem State.offer_port (s : State) (b : NoticeBody) : (s.offer b).port = s.port := rfl
@[simp] theorem State.offer_freeCount (s : State) (b : NoticeBody) : (s.offer b).freeCount = s.freeCount := rfl
@[simp] theorem State.offer_pending (s : State) (b : NoticeBody) : (s.offer b).pending = s.pending := rfl
@[simp] theorem State.offer_notices (s : State) (b : NoticeBody) : (s.offer b).notices = s.notices.offer ⟨b, s.control.clock⟩ := rfl

@[simp] theorem State.offerState_control (s : State) : (s.offerState).control = s.control := rfl
@[simp] theorem State.offerState_line (s : State) : (s.offerState).line = s.line := rfl
@[simp] theorem State.offerState_frame (s : State) : (s.offerState).frame = s.frame := rfl
@[simp] theorem State.offerState_arbiter (s : State) : (s.offerState).arbiter = s.arbiter := rfl
@[simp] theorem State.offerState_points (s : State) : (s.offerState).points = s.points := rfl
@[simp] theorem State.offerState_publication (s : State) : (s.offerState).publication = s.publication := rfl
@[simp] theorem State.offerState_peers (s : State) : (s.offerState).peers = s.peers := rfl
@[simp] theorem State.offerState_port (s : State) : (s.offerState).port = s.port := rfl
@[simp] theorem State.offerState_freeCount (s : State) : (s.offerState).freeCount = s.freeCount := rfl
@[simp] theorem State.offerState_pending (s : State) : (s.offerState).pending = s.pending := rfl

@[simp] theorem State.judgeRoutine_control (s : State) : (s.judgeRoutine).control = s.control := rfl
@[simp] theorem State.judgeRoutine_line (s : State) : (s.judgeRoutine).line = s.line := rfl
@[simp] theorem State.judgeRoutine_frame (s : State) : (s.judgeRoutine).frame = s.frame := rfl
@[simp] theorem State.judgeRoutine_points (s : State) : (s.judgeRoutine).points = s.points := rfl
@[simp] theorem State.judgeRoutine_publication (s : State) : (s.judgeRoutine).publication = s.publication := rfl
@[simp] theorem State.judgeRoutine_peers (s : State) : (s.judgeRoutine).peers = s.peers := rfl
@[simp] theorem State.judgeRoutine_notices (s : State) : (s.judgeRoutine).notices = s.notices := rfl
@[simp] theorem State.judgeRoutine_port (s : State) : (s.judgeRoutine).port = s.port := rfl
@[simp] theorem State.judgeRoutine_freeCount (s : State) : (s.judgeRoutine).freeCount = s.freeCount := rfl
@[simp] theorem State.judgeRoutine_pending (s : State) : (s.judgeRoutine).pending = s.pending := rfl
@[simp] theorem State.judgeRoutine_wants (s : State) : s.judgeRoutine.arbiter.wants = s.arbiter.wants.put .routine (s.publication.round.isOpen && !s.publication.publishSet.isEmpty) := rfl
@[simp] theorem State.judgeRoutine_inFlight (s : State) : s.judgeRoutine.arbiter.inFlight = s.arbiter.inFlight := rfl
@[simp] theorem State.judgeRoutine_failures (s : State) : s.judgeRoutine.arbiter.failures = s.arbiter.failures := rfl

@[simp] theorem State.judgeAlarm_control (s : State) : (s.judgeAlarm).control = s.control := rfl
@[simp] theorem State.judgeAlarm_line (s : State) : (s.judgeAlarm).line = s.line := rfl
@[simp] theorem State.judgeAlarm_frame (s : State) : (s.judgeAlarm).frame = s.frame := rfl
@[simp] theorem State.judgeAlarm_points (s : State) : (s.judgeAlarm).points = s.points := rfl
@[simp] theorem State.judgeAlarm_publication (s : State) : (s.judgeAlarm).publication = s.publication := rfl
@[simp] theorem State.judgeAlarm_peers (s : State) : (s.judgeAlarm).peers = s.peers := rfl
@[simp] theorem State.judgeAlarm_notices (s : State) : (s.judgeAlarm).notices = s.notices := rfl
@[simp] theorem State.judgeAlarm_port (s : State) : (s.judgeAlarm).port = s.port := rfl
@[simp] theorem State.judgeAlarm_freeCount (s : State) : (s.judgeAlarm).freeCount = s.freeCount := rfl
@[simp] theorem State.judgeAlarm_pending (s : State) : (s.judgeAlarm).pending = s.pending := rfl
@[simp] theorem State.judgeAlarm_wants (s : State) : s.judgeAlarm.arbiter.wants = s.arbiter.wants.put .alarm (s.urgentWaiting) := rfl
@[simp] theorem State.judgeAlarm_inFlight (s : State) : s.judgeAlarm.arbiter.inFlight = s.arbiter.inFlight := rfl
@[simp] theorem State.judgeAlarm_failures (s : State) : s.judgeAlarm.arbiter.failures = s.arbiter.failures := rfl

@[simp] theorem State.judgeResend_control (s : State) : (s.judgeResend).control = s.control := rfl
@[simp] theorem State.judgeResend_line (s : State) : (s.judgeResend).line = s.line := rfl
@[simp] theorem State.judgeResend_frame (s : State) : (s.judgeResend).frame = s.frame := rfl
@[simp] theorem State.judgeResend_points (s : State) : (s.judgeResend).points = s.points := rfl
@[simp] theorem State.judgeResend_publication (s : State) : (s.judgeResend).publication = s.publication := rfl
@[simp] theorem State.judgeResend_peers (s : State) : (s.judgeResend).peers = s.peers := rfl
@[simp] theorem State.judgeResend_notices (s : State) : (s.judgeResend).notices = s.notices := rfl
@[simp] theorem State.judgeResend_port (s : State) : (s.judgeResend).port = s.port := rfl
@[simp] theorem State.judgeResend_freeCount (s : State) : (s.judgeResend).freeCount = s.freeCount := rfl
@[simp] theorem State.judgeResend_pending (s : State) : (s.judgeResend).pending = s.pending := rfl
@[simp] theorem State.judgeResend_wants (s : State) : s.judgeResend.arbiter.wants = s.arbiter.wants.put .resend (s.publication.replay != 0 && s.publication.resendFlight.isEmpty) := rfl
@[simp] theorem State.judgeResend_inFlight (s : State) : s.judgeResend.arbiter.inFlight = s.arbiter.inFlight := rfl
@[simp] theorem State.judgeResend_failures (s : State) : s.judgeResend.arbiter.failures = s.arbiter.failures := rfl

@[simp] theorem State.judgeAsk_control (s : State) : (s.judgeAsk).control = s.control := rfl
@[simp] theorem State.judgeAsk_line (s : State) : (s.judgeAsk).line = s.line := rfl
@[simp] theorem State.judgeAsk_frame (s : State) : (s.judgeAsk).frame = s.frame := rfl
@[simp] theorem State.judgeAsk_points (s : State) : (s.judgeAsk).points = s.points := rfl
@[simp] theorem State.judgeAsk_publication (s : State) : (s.judgeAsk).publication = s.publication := rfl
@[simp] theorem State.judgeAsk_peers (s : State) : (s.judgeAsk).peers = s.peers := rfl
@[simp] theorem State.judgeAsk_notices (s : State) : (s.judgeAsk).notices = s.notices := rfl
@[simp] theorem State.judgeAsk_port (s : State) : (s.judgeAsk).port = s.port := rfl
@[simp] theorem State.judgeAsk_freeCount (s : State) : (s.judgeAsk).freeCount = s.freeCount := rfl
@[simp] theorem State.judgeAsk_pending (s : State) : (s.judgeAsk).pending = s.pending := rfl
@[simp] theorem State.judgeAsk_wants (s : State) : s.judgeAsk.arbiter.wants = s.arbiter.wants.put .ask (s.peers.records.any PeerRecord.askDue && s.peers.asking.isNone) := rfl
@[simp] theorem State.judgeAsk_inFlight (s : State) : s.judgeAsk.arbiter.inFlight = s.arbiter.inFlight := rfl
@[simp] theorem State.judgeAsk_failures (s : State) : s.judgeAsk.arbiter.failures = s.arbiter.failures := rfl

@[simp] theorem State.raiseBeacon_control (s : State) : (s.raiseBeacon).control = s.control := rfl
@[simp] theorem State.raiseBeacon_line (s : State) : (s.raiseBeacon).line = s.line := rfl
@[simp] theorem State.raiseBeacon_frame (s : State) : (s.raiseBeacon).frame = s.frame := rfl
@[simp] theorem State.raiseBeacon_points (s : State) : (s.raiseBeacon).points = s.points := rfl
@[simp] theorem State.raiseBeacon_publication (s : State) : (s.raiseBeacon).publication = s.publication := rfl
@[simp] theorem State.raiseBeacon_peers (s : State) : (s.raiseBeacon).peers = s.peers := rfl
@[simp] theorem State.raiseBeacon_notices (s : State) : (s.raiseBeacon).notices = s.notices := rfl
@[simp] theorem State.raiseBeacon_port (s : State) : (s.raiseBeacon).port = s.port := rfl
@[simp] theorem State.raiseBeacon_freeCount (s : State) : (s.raiseBeacon).freeCount = s.freeCount := rfl
@[simp] theorem State.raiseBeacon_pending (s : State) : (s.raiseBeacon).pending = s.pending := rfl
@[simp] theorem State.raiseBeacon_wants (s : State) : s.raiseBeacon.arbiter.wants = s.arbiter.wants.put .beacon (true) := rfl
@[simp] theorem State.raiseBeacon_inFlight (s : State) : s.raiseBeacon.arbiter.inFlight = s.arbiter.inFlight := rfl
@[simp] theorem State.raiseBeacon_failures (s : State) : s.raiseBeacon.arbiter.failures = s.arbiter.failures := rfl

@[simp] theorem State.restartBeacon_control (s : State) : (s.restartBeacon).control = s.control := rfl
@[simp] theorem State.restartBeacon_line (s : State) : (s.restartBeacon).line = s.line := rfl
@[simp] theorem State.restartBeacon_frame (s : State) : (s.restartBeacon).frame = s.frame := rfl
@[simp] theorem State.restartBeacon_arbiter (s : State) : (s.restartBeacon).arbiter = s.arbiter := rfl
@[simp] theorem State.restartBeacon_points (s : State) : (s.restartBeacon).points = s.points := rfl
@[simp] theorem State.restartBeacon_peers (s : State) : (s.restartBeacon).peers = s.peers := rfl
@[simp] theorem State.restartBeacon_notices (s : State) : (s.restartBeacon).notices = s.notices := rfl
@[simp] theorem State.restartBeacon_port (s : State) : (s.restartBeacon).port = s.port := rfl
@[simp] theorem State.restartBeacon_freeCount (s : State) : (s.restartBeacon).freeCount = s.freeCount := rfl
@[simp] theorem State.restartBeacon_pending (s : State) : (s.restartBeacon).pending = s.pending := rfl

/-! ### Wants -/

@[simp] theorem Wants.raised_put_self (w : Wants) (k : Want) (b : Bool) : (w.put k b).raised k = b := by
  cases k <;> rfl

theorem Wants.raised_put_other (w : Wants) (k j : Want) (b : Bool) (h : j ≠ k) :
    (w.put k b).raised j = w.raised j := by
  cases k <;> cases j <;> first | rfl | exact absurd rfl h

end Sys2Proof.Machine
end

