-- ==== Sys2Proof/Laws/Cells.lean ====
section
/-! SUPPORT. Laws/Cells.lean: the bits of frames as they are sent and received, and everything the handing over of cells
can do. -/

namespace Sys2Proof.Machine

open Sys2Proof

/-! ### Bits and numbers -/

theorem sentBits_length {n : Nat} (w : BitVec n) : (sentBits w).length = n := by simp [sentBits]

theorem flatMap_sentBits_length (body : List Byte) : (body.flatMap sentBits).length = 8 * body.length := by
  induction body with
  | nil => rfl
  | cons b l ih => simp [List.flatMap_cons, ih, sentBits_length]; omega

theorem wireBits_length (w : WireFrame) : (wireBits w).length = 32 + 8 * w.body.length := by
  rw [wireBits, coveredBits, List.length_append, List.length_append, flatMap_sentBits_length, sentBits_length,
    sentBits_length]
  omega

/-- One more bit enters a number from below. -/
theorem wordOfBits_snoc (n : Nat) (l : List Bool) (b : Bool) :
    wordOfBits n (l ++ [b]) = wordOfBits n l <<< 1 ||| (BitVec.ofBool b).setWidth n := by
  simp [wordOfBits, List.foldl_append]

/-- Each place of the number that bits spell: the last bit stands in place 0. -/
theorem getLsbD_wordOfBits (n : Nat) (l : List Bool) (i : Nat) (hi : i < n) :
    (wordOfBits n l).getLsbD i = (l.reverse[i]?).getD false := by
  induction l using List.reverseRecOn generalizing i with
  | nil => simp [wordOfBits]
  | append_singleton l b ih =>
    rw [wordOfBits_snoc, List.reverse_append]
    cases i with
    | zero => simp [hi]
    | succ k =>
      have hk : k < n := by omega
      have ih' := ih k hk
      rw [BitVec.getLsbD_eq_getElem hk] at ih'
      simp [hi, ih']

/-- The bits of a number as they are sent spell it again. -/
theorem wordOfBits_sentBits {n : Nat} (w : BitVec n) : wordOfBits n (sentBits w) = w := by
  apply BitVec.eq_of_getLsbD_eq
  intro i hi
  rw [getLsbD_wordOfBits n _ i hi]
  have h : i < (sentBits w).length := by rw [sentBits_length]; exact hi
  rw [List.getElem?_reverse h, sentBits_length]
  simp only [sentBits, List.getElem?_map]
  rw [List.getElem?_range (by omega)]
  simp only [Option.map_some, Option.getD_some]
  congr 1
  omega

/-- As many bits as a number has spell a number whose sent bits they are. -/
theorem sentBits_wordOfBits {n : Nat} (l : List Bool) (h : l.length = n) : sentBits (wordOfBits n l) = l := by
  apply List.ext_getElem
  · rw [sentBits_length, h]
  · intro i h1 h2
    have hi : i < n := by omega
    simp only [sentBits, List.getElem_map, List.getElem_range]
    rw [getLsbD_wordOfBits n l (n - 1 - i) (by omega), List.getElem?_reverse (by omega), h]
    have e : n - 1 - (n - 1 - i) = i := by omega
    rw [e, List.getElem?_eq_getElem h2]
    rfl

theorem bytesOfBits_length (n : Nat) (l : List Bool) : (bytesOfBits n l).length = n := by
  induction n generalizing l with
  | zero => rfl
  | succ n ih => simp [bytesOfBits, ih]

/-- The bits of a body spell its bytes again, whatever follows them. -/
theorem bytesOfBits_flatMap (body : List Byte) (rest : List Bool) :
    bytesOfBits body.length (body.flatMap sentBits ++ rest) = body := by
  induction body with
  | nil => rfl
  | cons b l ih =>
    have h8 : (sentBits b).length = 8 := sentBits_length b
    rw [List.flatMap_cons, List.append_assoc, List.length_cons, bytesOfBits, List.take_left' h8, List.drop_left' h8,
      wordOfBits_sentBits, ih]

/-- Whole bytes of bits are the sent bits of the bytes they spell. -/
theorem flatMap_bytesOfBits (n : Nat) (l : List Bool) (h : 8 * n ≤ l.length) :
    (bytesOfBits n l).flatMap sentBits = l.take (8 * n) := by
  induction n generalizing l with
  | zero => simp [bytesOfBits]
  | succ n ih =>
    rw [bytesOfBits, List.flatMap_cons, ih _ (by simp; omega), sentBits_wordOfBits _ (by simp; omega)]
    rw [show 8 * (n + 1) = 8 + 8 * n by omega, List.take_add]

/-! ### Frames -/

theorem leadOfBits_wireBits (w : WireFrame) : leadOfBits (wireBits w) = w.lead := by
  unfold leadOfBits wireBits coveredBits
  rw [List.append_assoc, List.take_left' (sentBits_length _), wordOfBits_sentBits]

theorem frameBits?_wireBits (w : WireFrame) : frameBits? (wireBits w) = some (32 + 8 * leadLength w.lead) := by
  unfold frameBits?
  rw [if_neg (by rw [wireBits_length]; omega), leadOfBits_wireBits]

/-- A frame of the length that its lead gives is finished with its last check bit. -/
theorem finished_wireBits (w : WireFrame) : finished (wireBits w) = frameEnds w := by
  unfold finished frameEnds
  rw [frameBits?_wireBits, wireBits_length]
  rw [Bool.eq_iff_iff]
  simp only [beq_iff_eq, Option.some.injEq]
  omega

/-- The buffer at a frame's end holds that frame. -/
theorem wireOfBits_wireBits {w : WireFrame} (h : frameEnds w = true) : wireOfBits (wireBits w) = w := by
  have hb : w.body.length = leadLength w.lead := by simpa [frameEnds] using h
  unfold wireOfBits
  dsimp only
  rw [leadOfBits_wireBits, ← hb]
  have h16 : (sentBits w.lead).length = 16 := sentBits_length _
  have hc : (coveredBits w.lead w.body).length = 16 + 8 * w.body.length := by
    rw [coveredBits, List.length_append, flatMap_sentBits_length, sentBits_length]
  have e1 : (wireBits w).drop 16 = w.body.flatMap sentBits ++ sentBits w.check := by
    unfold wireBits coveredBits
    rw [List.append_assoc, List.drop_left' h16]
  have e2 : (wireBits w).drop (16 + 8 * w.body.length) = sentBits w.check := by
    unfold wireBits
    rw [List.drop_left' hc]
  rw [e1, e2, bytesOfBits_flatMap, wordOfBits_sentBits]

/-- Finished bits are the sent bits of the frame they hold, which has the length that its lead gives. -/
theorem wireBits_wireOfBits {bits : List Bool} (h : finished bits = true) :
    wireBits (wireOfBits bits) = bits ∧ frameEnds (wireOfBits bits) = true := by
  unfold finished frameBits? at h
  split at h
  · simp at h
  next hl =>
    have hn : 32 + 8 * leadLength (leadOfBits bits) = bits.length := by simpa using h
    refine ⟨?_, by simp [frameEnds, wireOfBits, bytesOfBits_length]⟩
    unfold wireBits coveredBits wireOfBits
    dsimp only
    rw [flatMap_bytesOfBits _ _ (by simp; omega), sentBits_wordOfBits _ (by simp; omega)]
    unfold leadOfBits
    rw [sentBits_wordOfBits _ (by simp; omega)]
    rw [← List.take_add, List.take_append_drop]

/-! ### Cells -/

/-- Everything that cells do to the buffer, at once. -/
theorem State.cellsTaken_eq (s : State) (a : Assembly) (cells : List Level) :
    s.cellsTaken a cells =
      { bits := a.bits ++ cells.map sampledBit
        own :=
          if a.bits.length < 11 ∧ 11 ≤ a.bits.length + cells.length then s.arbiter.inFlight.isSome else a.own
        origin := cells.foldl (Origin.next s.line.drive) a.origin } := by
  unfold State.cellsTaken
  induction cells generalizing a with
  | nil => cases a; simp
  | cons c l ih =>
    rw [List.foldl_cons, ih]
    simp only [Assembly.take, List.append_assoc, List.singleton_append, List.map_cons, List.length_append,
      List.length_cons, List.length_nil, List.foldl_cons]
    congr 1
    by_cases h10 : a.bits.length = 10
    · rw [if_neg (by omega), if_pos h10, if_pos (by omega)]
    · rw [if_neg h10]
      refine if_congr ?_ rfl rfl
      omega

/-- Cells touch the assembly buffer alone. -/
theorem State.takeCells_eq (s : State) (cells : List Level) :
    s.takeCells cells =
      s.setAssembly
        (s.frame.assembly.map (fun a =>
          if unfinished (s.cellsTaken a cells).bits then s.cellsTaken a cells else a)) := by
  unfold State.takeCells
  cases h : s.frame.assembly with
  | none =>
    show s = { s with frame := { s.frame with assembly := none } }
    rw [← h]
  | some a =>
    dsimp only [Option.map_some]
    split
    · rfl
    · show s = { s with frame := { s.frame with assembly := some a } }
      rw [← h]

theorem State.takeCells_none {s : State} (h : s.frame.assembly = none) (cells : List Level) :
    s.takeCells cells = s := by
  unfold State.takeCells
  rw [h]

theorem State.takeCells_nil (s : State) : s.takeCells [] = s := by
  unfold State.takeCells
  cases h : s.frame.assembly with
  | none => rfl
  | some a =>
    dsimp only
    split
    · show { s with frame := { s.frame with assembly := some a } } = s
      rw [← h]
    · rfl

@[simp] theorem State.takeCells_control (s : State) (cells : List Level) : (s.takeCells cells).control = s.control := by
  rw [State.takeCells_eq]; rfl
@[simp] theorem State.takeCells_line (s : State) (cells : List Level) : (s.takeCells cells).line = s.line := by
  rw [State.takeCells_eq]; rfl
@[simp] theorem State.takeCells_arbiter (s : State) (cells : List Level) : (s.takeCells cells).arbiter = s.arbiter := by
  rw [State.takeCells_eq]; rfl
@[simp] theorem State.takeCells_points (s : State) (cells : List Level) : (s.takeCells cells).points = s.points := by
  rw [State.takeCells_eq]; rfl
@[simp] theorem State.takeCells_publication (s : State) (cells : List Level) : (s.takeCells cells).publication = s.publication := by
  rw [State.takeCells_eq]; rfl
@[simp] theorem State.takeCells_peers (s : State) (cells : List Level) : (s.takeCells cells).peers = s.peers := by
  rw [State.takeCells_eq]; rfl
@[simp] theorem State.takeCells_notices (s : State) (cells : List Level) : (s.takeCells cells).notices = s.notices := by
  rw [State.takeCells_eq]; rfl
@[simp] theorem State.takeCells_port (s : State) (cells : List Level) : (s.takeCells cells).port = s.port := by
  rw [State.takeCells_eq]; rfl
@[simp] theorem State.takeCells_freeCount (s : State) (cells : List Level) : (s.takeCells cells).freeCount = s.freeCount := by
  rw [State.takeCells_eq]; rfl
@[simp] theorem State.takeCells_pending (s : State) (cells : List Level) : (s.takeCells cells).pending = s.pending := by
  rw [State.takeCells_eq]; rfl

/-- A finished frame ends at FRAME_END: discarded when it is the station's own, judged when it is not. -/
theorem execFrameEnd_finished {s : State} {a : Assembly} {w : WireFrame} {cells : List Level}
    (ha : s.frame.assembly = some a) (hw : a.bits ++ cells.map sampledBit = wireBits w) (he : frameEnds w = true) :
    execFrameEnd cells s =
      .next (if (s.cellsTaken a cells).own then s.finishAssembly else s.finishAssembly.judgeFrame w) := by
  unfold execFrameEnd
  rw [ha]
  have hb : (s.cellsTaken a cells).bits = wireBits w := by rw [State.cellsTaken_eq]; exact hw
  dsimp only
  rw [hb, finished_wireBits, he, wireOfBits_wireBits he]
  rfl

end Sys2Proof.Machine
end

