-- ==== Sys2Proof/Laws/Notices.lean ====
section
/-! SUPPORT. Laws/Notices.lean: what an offer, a removal and the end of a take do to the notice unit, and that each
keeps its form. -/

namespace Sys2Proof.Machine

open Sys2Proof

/-! ### Appending -/

theorem NoticeUnit.append_room (u : NoticeUnit) (r : NoticeRecord) (h : u.queue.length < 32) :
    u.append r = { u with queue := u.queue ++ [r] } := by simp [NoticeUnit.append, h]

theorem NoticeUnit.append_full (u : NoticeUnit) (r : NoticeRecord) (h : ¬u.queue.length < 32) :
    u.append r = { u with overflow := true, lostCount := lostRise u.lostCount } := by simp [NoticeUnit.append, h]

theorem lostRise_ne_zero (c : Byte) : lostRise c ≠ 0 := by
  unfold lostRise
  split
  next h => rw [h]; decide
  next h => exact fun e => h (by
    have := congrArg (· - 1#8) e
    simpa using this)

/-- An appended record that is no second change record of a key keeps the form. -/
theorem NoticeUnit.append_wf {u : NoticeUnit} {r : NoticeRecord} (h : u.wf)
    (hr : ∀ a ∈ u.queue, differentChange a r) : (u.append r).wf := by
  obtain ⟨h1, h2, h3, h4, h5⟩ := h
  by_cases hl : u.queue.length < 32
  · rw [NoticeUnit.append_room u r hl]
    refine ⟨?_, ?_, ?_, h4, ?_⟩
    · simpa using hl
    · exact List.pairwise_append.2 ⟨h2, by simp, fun a ha b hb => by
        rw [List.mem_singleton.1 hb]; exact hr a ha⟩
    · intro ho
      have := h3 ho
      omega
    · simp
  · rw [NoticeUnit.append_full u r hl]
    refine ⟨h1, h2, fun _ => by show u.queue.length = 32; omega, ?_, h5⟩
    simpa using lostRise_ne_zero u.lostCount

/-! ### Coalescing -/

theorem NoticeRecord.isChangeOf_iff (k : Key) (r : NoticeRecord) :
    r.isChangeOf k = true ↔ r.changeKey? = some k := by
  unfold NoticeRecord.isChangeOf NoticeRecord.changeKey?
  cases r.body <;> simp

theorem NoticeUnit.holdsChange_false {u : NoticeUnit} {k : Key} (h : u.holdsChange k = false) :
    ∀ a ∈ u.queue, a.changeKey? ≠ some k := by
  intro a ha he
  have h1 := (NoticeRecord.isChangeOf_iff k a).2 he
  have h2 : u.holdsChange k = true := List.any_eq_true.2 ⟨a, ha, h1⟩
  simp [h] at h2

theorem coalesced_changeKey (k : Key) (version : Byte) (time : Word16) (r : NoticeRecord) :
    (if r.isChangeOf k then (⟨.updated k version, time⟩ : NoticeRecord) else r).changeKey? = r.changeKey? := by
  split
  next h => rw [(NoticeRecord.isChangeOf_iff k r).1 h]; rfl
  next => rfl

theorem NoticeUnit.coalesce_wf {u : NoticeUnit} (h : u.wf) (k : Key) (version : Byte) (time : Word16) :
    (u.coalesce k version time).wf := by
  obtain ⟨h1, h2, h3, h4, h5⟩ := h
  unfold NoticeUnit.coalesce
  refine ⟨by simpa using h1, ?_, by simpa using h3, h4, ?_⟩
  · refine List.pairwise_map.2 (h2.imp ?_)
    intro a b hab
    simpa only [differentChange, coalesced_changeKey] using hab
  · intro hm
    have : u.mark ≠ .none := by
      intro e
      simp [e] at hm
    simpa using h5 this

/-! ### Offers -/

theorem NoticeUnit.take_wf {u : NoticeUnit} (h : u.wf) (r : NoticeRecord) : (u.take r).wf := by
  have plain : ∀ b : NoticeBody, (⟨b, r.time⟩ : NoticeRecord).changeKey? = none →
      r.body = b → (u.append r).wf := fun b hb he =>
    NoticeUnit.append_wf h fun a _ => by
      have : r.changeKey? = none := by rw [← hb]; simp [NoticeRecord.changeKey?, he]
      cases ha : a.changeKey? with
      | none => exact .inl ha
      | some k => exact .inr (by rw [this, ha]; simp)
  have fresh : ∀ k, r.changeKey? = some k → u.holdsChange k = false → (u.append r).wf := fun k hk hh =>
    NoticeUnit.append_wf h fun a ha => .inr (by rw [hk]; exact NoticeUnit.holdsChange_false hh a ha)
  unfold NoticeUnit.take
  split
  next k v he =>
    split
    · exact NoticeUnit.coalesce_wf h k v r.time
    next hh => exact fresh k (by simp [NoticeRecord.changeKey?, he]) (by simpa using hh)
  next k v he =>
    split
    · exact h
    next hh => exact fresh k (by simp [NoticeRecord.changeKey?, he]) (by simpa using hh)
  all_goals
    next he => exact plain _ rfl he

theorem NoticeUnit.offer_wf {u : NoticeUnit} (h : u.wf) (r : NoticeRecord) : (u.offer r).wf := by
  unfold NoticeUnit.offer
  split
  · exact NoticeUnit.take_wf h r
  · exact h

theorem State.offer_wf {s : State} (h : s.notices.wf) (b : NoticeBody) : (s.offer b).notices.wf :=
  NoticeUnit.offer_wf h _

/-- An offer leaves the windows as they are, and sets no mark on a head that has none. -/
theorem NoticeUnit.offer_windows (u : NoticeUnit) (r : NoticeRecord) : (u.offer r).windows = u.windows := by
  unfold NoticeUnit.offer NoticeUnit.take NoticeUnit.append NoticeUnit.coalesce
  repeat' split
  all_goals rfl

theorem NoticeUnit.offer_mark_none (u : NoticeUnit) (r : NoticeRecord) :
    (u.offer r).mark = .none ↔ u.mark = .none := by
  unfold NoticeUnit.offer NoticeUnit.take NoticeUnit.append NoticeUnit.coalesce
  repeat' split
  all_goals first
    | exact Iff.rfl
    | (constructor <;> intro hm <;> simp_all)

/-! ### Removal -/

theorem NoticeUnit.removeHead_wf {u : NoticeUnit} (h : u.wf) (time : Word16) :
    ({ u.removeHead time with mark := .none } : NoticeUnit).wf := by
  obtain ⟨h1, h2, h3, h4, _⟩ := h
  unfold NoticeUnit.removeHead
  split
  next ho =>
    have hl := h3 ho
    refine ⟨?_, ?_, ?_, ?_, ?_⟩
    · simp only [List.length_append, List.length_tail, List.length_singleton]
      omega
    · exact List.pairwise_append.2 ⟨h2.sublist (List.tail_sublist _), by simp, fun a _ b hb => by
        cases ha : a.changeKey? with
        | none => exact .inl ha
        | some k => exact .inr (by rw [ha, List.mem_singleton.1 hb]; simp [NoticeRecord.changeKey?])⟩
    all_goals simp
  next ho =>
    refine ⟨?_, h2.sublist (List.tail_sublist _), ?_, ?_, ?_⟩
    · simp only [List.length_tail]
      omega
    · intro h'; exact absurd h' ho
    · exact h4
    · simp

theorem NoticeUnit.finishTake_wf {u : NoticeUnit} (h : u.wf) (time : Word16) : (u.finishTake time).wf := by
  unfold NoticeUnit.finishTake
  split
  · exact h
  · exact NoticeUnit.removeHead_wf h time
  · exact ⟨h.1, h.2.1, h.2.2.1, h.2.2.2.1, by simp⟩

end Sys2Proof.Machine
end

