-- ==== Sys2Proof/Laws/Peers.lean ====
section
/-! SUPPORT. Laws/Peers.lean: what the peer unit's events leave alone, said once for each operation and carried through
the classification of a frame. -/

namespace Sys2Proof.Machine

open Sys2Proof

/-- What an event of the peer unit leaves as it was: everything but the points, the peers, the notices, the wants
and the fault flags; the own points and the windows among what stays. -/
structure PeerSide (s t : State) : Prop where
  line : t.line = s.line
  frame : t.frame = s.frame
  publication : t.publication = s.publication
  port : t.port = s.port
  freeCount : t.freeCount = s.freeCount
  pending : t.pending = s.pending
  own : t.points.own = s.points.own
  declarations : t.points.declarations = s.points.declarations
  arbiter : { t.arbiter with wants := s.arbiter.wants } = s.arbiter
  control : { t.control with faults := s.control.faults } = s.control

theorem PeerSide.refl (s : State) : PeerSide s s := ⟨rfl, rfl, rfl, rfl, rfl, rfl, rfl, rfl, rfl, rfl⟩

theorem PeerSide.trans {s t u : State} (h : PeerSide s t) (k : PeerSide t u) : PeerSide s u where
  line := k.line.trans h.line
  frame := k.frame.trans h.frame
  publication := k.publication.trans h.publication
  port := k.port.trans h.port
  freeCount := k.freeCount.trans h.freeCount
  pending := k.pending.trans h.pending
  own := k.own.trans h.own
  declarations := k.declarations.trans h.declarations
  arbiter := by
    rw [← h.arbiter, ← k.arbiter]
  control := by
    rw [← h.control, ← k.control]

theorem PeerSide.foldl {α : Type} {f : State → α → State} (hf : ∀ s a, PeerSide s (f s a)) (l : List α) (s : State) :
    PeerSide s (l.foldl f s) := by
  induction l generalizing s with
  | nil => exact .refl s
  | cons a l ih => exact (hf s a).trans (ih _)

/-! ### Single updates -/

theorem PeerSide.setPeers (s : State) (x : PeerUnit) : PeerSide s (s.setPeers x) :=
  ⟨rfl, rfl, rfl, rfl, rfl, rfl, rfl, rfl, rfl, rfl⟩
theorem PeerSide.setNotices (s : State) (x : NoticeUnit) : PeerSide s (s.setNotices x) :=
  ⟨rfl, rfl, rfl, rfl, rfl, rfl, rfl, rfl, rfl, rfl⟩
theorem PeerSide.setWant (s : State) (k : Want) (b : Bool) : PeerSide s (s.setWant k b) :=
  ⟨rfl, rfl, rfl, rfl, rfl, rfl, rfl, rfl, rfl, rfl⟩
theorem PeerSide.setFaults (s : State) (f : FaultFlags) : PeerSide s (s.setFaults f) :=
  ⟨rfl, rfl, rfl, rfl, rfl, rfl, rfl, rfl, rfl, rfl⟩
theorem PeerSide.offer (s : State) (b : NoticeBody) : PeerSide s (s.offer b) := .setNotices _ _
theorem PeerSide.mapPeer (s : State) (n : Station) (f : PeerRecord → PeerRecord) : PeerSide s (s.mapPeer n f) :=
  .setPeers _ _
theorem PeerSide.disown (s : State) (n : Station) : PeerSide s (s.disown n) := .setPeers _ _
theorem PeerSide.judgeAsk (s : State) : PeerSide s s.judgeAsk := .setWant _ _ _
theorem PeerSide.setMirrored (s : State) (m : List MirrorEntry) :
    PeerSide s (s.setPoints { s.points with mirrored := m }) := ⟨rfl, rfl, rfl, rfl, rfl, rfl, rfl, rfl, rfl, rfl⟩
theorem PeerSide.putMirror (s : State) (e : MirrorEntry) : PeerSide s (s.putMirror e) := .setMirrored _ _

/-! ### Items -/

theorem PeerSide.createEntry (s : State) (k : Key) (i : Item) : PeerSide s (s.createEntry k i) := by
  unfold State.createEntry
  split
  · exact (PeerSide.putMirror s _).trans (.offer _ _)
  · split
    · exact ((PeerSide.setMirrored s _).trans (.putMirror _ _)).trans (.offer _ _)
    · exact (PeerSide.setFaults s _).trans (.offer _ _)

theorem PeerSide.applyItem (s : State) (k : Key) (i : Item) (clash : Bool) :
    PeerSide s (s.applyItem k i clash) := by
  have h := (PeerSide.putMirror s (appliedEntry k i s.control.clock)).trans (.offer _ (.updated k i.version))
  unfold State.applyItem
  cases clash
  · exact h
  · exact h.trans (.offer _ _)

theorem PeerSide.takeItem (s : State) (n : Station) (interest : IndexSet) (c : Carrier) (i : Item) :
    PeerSide s (s.takeItem n interest c i) := by
  unfold State.takeItem
  dsimp only
  split
  · split
    · exact .createEntry _ _ _
    · exact .refl _
  · split
    · exact .refl _
    · exact (PeerSide.putMirror s _).trans (.offer _ _)
    · exact .applyItem _ _ _ _

theorem PeerSide.handOver (s : State) (n : Station) (c : Carrier) (i : Item) : PeerSide s (s.handOver n c i) :=
  (PeerSide.takeItem s n _ c i).trans (.mapPeer _ _ _)

theorem PeerSide.itemsStep (s : State) (f : Frame) : PeerSide s (s.itemsStep f) :=
  .foldl (fun s i => .handOver s _ _ i) _ _

/-! ### The classification -/

theorem PeerSide.hear (s : State) (f : Frame) : PeerSide s (s.hear f) := by
  unfold State.hear
  dsimp only
  split
  · exact ((PeerSide.mapPeer s _ _).trans (.setPeers _ _)).trans (.offer _ _)
  · exact (PeerSide.mapPeer s _ _).trans (.setPeers _ _)

theorem PeerSide.takeGap (s : State) (n : Station) (next : Byte) : PeerSide s (s.takeGap n next) :=
  ((PeerSide.setMirrored s _).trans (.mapPeer _ _ _)).trans (.offer _ _)

theorem PeerSide.checkSequence (s : State) (n : Station) (a b : Byte) : PeerSide s (s.checkSequence n a b) := by
  unfold State.checkSequence
  split
  · exact .mapPeer _ _ _
  · split
    · exact .mapPeer _ _ _
    · exact .takeGap _ _ _

theorem PeerSide.sequenceStep (s : State) (f : Frame) : PeerSide s (s.sequenceStep f) := by
  unfold State.sequenceStep
  split
  · exact .checkSequence _ _ _ _
  · exact .checkSequence _ _ _ _
  all_goals exact .refl _

theorem PeerSide.takeBeacon (s : State) (n : Station) (p : Byte) (set : IndexSet) :
    PeerSide s (s.takeBeacon n p set) := by
  unfold State.takeBeacon
  split
  · exact .refl _
  · exact (PeerSide.setMirrored s _).trans (.mapPeer _ _ _)

theorem PeerSide.contentsStep (s : State) (f : Frame) : PeerSide s (s.contentsStep f) := by
  unfold State.contentsStep
  split
  · exact .takeBeacon _ _ _ _
  · exact .mapPeer _ _ _
  all_goals exact .refl _

theorem PeerSide.recoveryComplete (s : State) (n : Station) : PeerSide s (s.recoveryComplete n) :=
  ((PeerSide.mapPeer s _ _).trans (.disown _ _)).trans (.offer _ _)

theorem PeerSide.recoveryStep (s : State) (n : Station) : PeerSide s (s.recoveryStep n) := by
  unfold State.recoveryStep
  split
  · split
    · exact .recoveryComplete _ _
    · exact .refl _
  · exact .refl _

theorem PeerSide.testMet (s : State) (n : Station) : PeerSide s (s.testMet n) := by
  unfold State.testMet
  split
  · exact .refl _
  · split
    · exact .mapPeer _ _ _
    · exact .refl _

theorem PeerSide.classifyRecord (s : State) (f : Frame) : PeerSide s (s.classifyRecord f) := by
  have h := ((((PeerSide.hear s f).trans (.sequenceStep _ f)).trans (.contentsStep _ f)).trans
    (.itemsStep _ f)).trans (.recoveryStep _ f.sender)
  unfold State.classifyRecord State.metStep
  dsimp only
  split
  · exact h.trans (.testMet _ _)
  · exact h

theorem PeerSide.checkEpoch (s : State) (r : PeerRecord) (f : Frame) : PeerSide s (s.checkEpoch r f) := by
  unfold State.checkEpoch
  split
  · exact .refl _
  · exact ((((PeerSide.setMirrored s _).trans (.mapPeer _ _ _)).trans (.setPeers _ _)).trans (.disown _ _)).trans
      (.offer _ _)

theorem PeerSide.makeRoom {s t : State} (h : s.makeRoom = some t) : PeerSide s t := by
  unfold State.makeRoom at h
  split at h
  · cases h
    exact .refl _
  · obtain ⟨n, _, rfl⟩ := Option.map_eq_some_iff.1 h
    exact ((PeerSide.setMirrored s _).trans (.setPeers _ _)).trans (.disown _ _)

theorem PeerSide.classify (s : State) (f : Frame) : PeerSide s (s.classify f) := by
  unfold State.classify
  split
  · exact ((PeerSide.checkEpoch s _ f).trans (.classifyRecord _ f)).trans (.judgeAsk _)
  · split
    next s' h =>
      exact ((((PeerSide.makeRoom h).trans (.setPeers _ _)).trans (.offer _ _)).trans (.classifyRecord _ f)).trans
        (.judgeAsk _)
    next => exact (PeerSide.setFaults s _).trans (.offer _ _)

theorem PeerSide.mergeAsk (s : State) (n : Station) (set : IndexSet) : PeerSide s (s.mergeAsk n set) := by
  unfold State.mergeAsk
  split
  · exact .refl _
  · split
    · exact ((PeerSide.mapPeer s _ _).trans (.testMet _ _)).trans (.judgeAsk _)
    · exact .refl _

/-- The peer unit's event at a good frame touches what a peer event may touch, and nothing else. -/
theorem PeerSide.peerEvent (s : State) (f : Frame) : PeerSide s (s.peerEvent f) := by
  unfold State.peerEvent
  split
  · dsimp only
    split
    · exact .classify _ _
    · exact (PeerSide.classify s f).trans (.mergeAsk _ _ _)
  all_goals exact .classify _ _

/-! ### Timers and forced recall -/

theorem PeerSide.silenceExpires (s : State) (r : PeerRecord) : PeerSide s (s.silenceExpires r) := by
  have h : PeerSide s (s.fallSilent r) :=
    ((((PeerSide.setMirrored s _).trans (.mapPeer _ _ _)).trans (.disown _ _)).trans (.offer _ _)).trans (.judgeAsk _)
  unfold State.silenceExpires
  split
  · exact h
  · exact h
  · exact ((PeerSide.mapPeer s _ _).trans (.setPeers _ _)).trans (.offer _ _)
  · exact .refl _

theorem PeerSide.recallWaitExpires (s : State) (r : PeerRecord) : PeerSide s (s.recallWaitExpires r) := by
  unfold State.recallWaitExpires
  split
  · exact (PeerSide.mapPeer s _ _).trans (.judgeAsk _)
  · exact (((PeerSide.setMirrored s _).trans (.mapPeer _ _ _)).trans (.offer _ _)).trans (.judgeAsk _)

theorem PeerSide.forceRecall (s : State) (r : PeerRecord) : PeerSide s (s.forceRecall r) := by
  unfold State.forceRecall
  split
  · exact .refl _
  · exact (PeerSide.mapPeer s _ _).trans (.judgeAsk _)

end Sys2Proof.Machine
end

