-- ==== Sys2Proof/Laws/Port.lean ====
section
/-! SUPPORT. Laws/Port.lean: everything the clocking of a local-port transaction can do, said once: bits, whole bytes, the
take of a command. -/

namespace Sys2Proof.Machine

open Sys2Proof

/-! ### The answer -/

@[simp] theorem State.answer_port (code : Byte) (args : List Byte) (p : Reply × State) :
    (State.answer code args p).port = Port.taken code args p.1 := rfl
@[simp] theorem State.answer_control (code : Byte) (args : List Byte) (p : Reply × State) :
    (State.answer code args p).control = p.2.control := rfl
@[simp] theorem State.answer_line (code : Byte) (args : List Byte) (p : Reply × State) :
    (State.answer code args p).line = p.2.line := rfl
@[simp] theorem State.answer_frame (code : Byte) (args : List Byte) (p : Reply × State) :
    (State.answer code args p).frame = p.2.frame := rfl
@[simp] theorem State.answer_arbiter (code : Byte) (args : List Byte) (p : Reply × State) :
    (State.answer code args p).arbiter = p.2.arbiter := rfl
@[simp] theorem State.answer_points (code : Byte) (args : List Byte) (p : Reply × State) :
    (State.answer code args p).points = p.2.points := rfl
@[simp] theorem State.answer_publication (code : Byte) (args : List Byte) (p : Reply × State) :
    (State.answer code args p).publication = p.2.publication := rfl
@[simp] theorem State.answer_peers (code : Byte) (args : List Byte) (p : Reply × State) :
    (State.answer code args p).peers = p.2.peers := rfl
@[simp] theorem State.answer_notices (code : Byte) (args : List Byte) (p : Reply × State) :
    (State.answer code args p).notices = p.2.notices := rfl
@[simp] theorem State.answer_freeCount (code : Byte) (args : List Byte) (p : Reply × State) :
    (State.answer code args p).freeCount = p.2.freeCount := rfl
@[simp] theorem State.answer_pending (code : Byte) (args : List Byte) (p : Reply × State) :
    (State.answer code args p).pending = p.2.pending := rfl

/-! ### Owners and port -/

theorem State.forceRecall_setPort (s : State) (r : PeerRecord) (p : Port) :
    (s.setPort p).forceRecall r = (s.forceRecall r).setPort p := by
  unfold State.forceRecall
  split <;> rfl

theorem State.writeOwn_setPort (s : State) (i : Index) (v : List Byte) (p : Port) :
    (s.setPort p).writeOwn i v = (s.writeOwn i v).setPort p := by
  unfold State.writeOwn
  cases h : (s.points.mapOwn i (fun e => { e with current := v })).urgent i
  · dsimp only
    rw [if_neg (by simp [h]), if_neg (by simp [h])]
    rfl
  · dsimp only
    rw [if_pos (by exact h), if_pos (by exact h)]
    rfl

theorem State.withdrawNow_setPort (s : State) (p : Port) : (s.setPort p).withdrawNow = s.withdrawNow.setPort p := by
  unfold State.withdrawNow
  by_cases h : s.arbiter.inFlight.isSome = true
  · rw [if_pos h, if_pos (by exact h)]; rfl
  · rw [if_neg h, if_neg (by exact h)]; rfl

/-- An owner neither reads nor changes the port (R182). -/
theorem State.perform_setPort (s : State) (p : Port) (args : List Byte) (c : PortCommand) :
    (s.setPort p).perform args c = ((s.perform args c).1, (s.perform args c).2.setPort p) := by
  cases c <;> dsimp only [State.perform]
  case readStatus => rfl
  case readPoint =>
    unfold readPoint
    split
    · split
      · have h : ∀ k, (s.setPort p).pointBytes k = s.pointBytes k := fun _ => rfl
        rw [h]; split <;> rfl
      · rfl
    · rfl
  case takeNotice =>
    unfold takeNotice
    dsimp only [State.setPort_notices]
    split <;> rfl
  case readPeer =>
    unfold readPeer
    dsimp only [State.setPort_peers]
    split
    · split
      · split <;> rfl
      · rfl
    · rfl
  case readTallies => rfl
  case clearFault =>
    unfold clearFault
    split
    · split <;> rfl
    · rfl
  case setIdentity =>
    unfold setIdentity
    split
    · split <;> rfl
    · rfl
  case setTiming =>
    unfold setTiming
    split
    · split <;> rfl
    · rfl
  case declarePoint =>
    unfold declarePoint
    split
    · split <;> rfl
    · rfl
  case setWindow =>
    unfold setWindow
    split
    · split
      · split <;> rfl
      · rfl
    · rfl
  case commit =>
    unfold commit
    dsimp only [State.setPort_control]
    split <;> rfl
  case writePoint =>
    unfold writePoint
    dsimp only [State.setPort_points]
    split
    · split
      · rw [State.writeOwn_setPort]
      · rfl
    · rfl
  case recallPeer =>
    unfold recallPeer
    dsimp only [State.setPort_peers]
    split
    · split
      · split
        · split
          · rfl
          · rw [State.forceRecall_setPort]
        · rfl
      · rfl
    · rfl
  case withdraw =>
    unfold withdraw
    dsimp only [State.setPort_control]
    split <;> first | rfl | rw [State.withdrawNow_setPort]
  case rejoin =>
    unfold rejoin
    dsimp only [State.setPort_control]
    split <;> rfl
  case restart => rfl

/-- An owner that does not answer OK changes nothing (R182). -/
theorem State.perform_refused {s : State} {args : List Byte} {c : PortCommand} (h : (s.perform args c).1.result ≠ .ok) :
    (s.perform args c).2 = s := by
  revert h
  cases c <;> simp only [State.perform, readStatus, readPoint, takeNotice, readPeer, readTallies, clearFault, setIdentity,
    setTiming, declarePoint, setWindow, commit, writePoint, recallPeer, withdraw, rejoin, restart] <;> (repeat' split) <;>
    intro h <;> first | rfl | exact absurd rfl h

/-- The port that an owner's state bears does not show in the answer. -/
theorem State.answer_perform_setPort (s : State) (p : Port) (code : Byte) (args : List Byte) (c : PortCommand) :
    State.answer code args ((s.setPort p).perform args c) = State.answer code args (s.perform args c) := by
  rw [State.perform_setPort]; rfl

/-! ### Bits and bytes -/

theorem sentBits_byte (b : Byte) :
    sentBits b = [b.getLsbD 7, b.getLsbD 6, b.getLsbD 5, b.getLsbD 4, b.getLsbD 3, b.getLsbD 2, b.getLsbD 1, b.getLsbD 0] := rfl

theorem portBits_cons (b : Byte) (l : List Byte) : portBits (b :: l) = sentBits b ++ portBits l := rfl

theorem State.clock_nil (s : State) : s.clock [] = s := rfl
theorem State.clock_cons (s : State) (b : Bool) (l : List Bool) : s.clock (b :: l) = (s.clockBit b).clock l := rfl
theorem State.clock_append (s : State) (l m : List Bool) : s.clock (l ++ m) = (s.clock l).clock m := List.foldl_append

/-- The falling edge outside the begin of a byte in WAITING. -/
theorem State.lclkFall_eq {s : State} (h : ¬(s.port.phase = .waiting ∧ s.port.bits = [])) :
    s.lclkFall = s.setPort s.port.drive := if_neg h

/-- Bits that complete no byte. -/
theorem State.clock_part {s : State} (l : List Bool) (hc : s.port.phase ≠ .closed)
    (hw : ¬(s.port.phase = .waiting ∧ s.port.bits = [])) (hl : s.port.bits.length + l.length ≤ 7) (hn : l ≠ []) :
    s.clock l = s.setPort { s.port with
      bits := s.port.bits ++ l
      ldo := s.port.ldoByte.map (fun b => b.getLsbD (8 - (s.port.bits.length + l.length))) } := by
  induction l generalizing s with
  | nil => exact absurd rfl hn
  | cons x l ih =>
    simp only [List.length_cons] at hl
    have hx : s.clockBit x = s.setPort { s.port.drive with bits := s.port.bits ++ [x] } := by
      unfold State.clockBit
      rw [if_neg hc, if_neg (by simp [Port.atRemoval]; omega), State.lclkFall_eq hw]
      unfold State.lclkRise
      rw [if_pos (by show s.port.bits.length < 7; omega)]
      rfl
    rw [State.clock_cons, hx]
    by_cases h : l = []
    · subst h
      rw [State.clock_nil]
      simp only [Port.drive, List.length_cons, List.length_nil]
      rw [show 8 - (s.port.bits.length + (0 + 1)) = 7 - s.port.bits.length by omega]
    · rw [ih (by exact hc) (by simp) (by simp; omega) h]
      simp only [State.setPort_port, State.setPort_setPort, Port.drive, List.append_assoc, List.singleton_append, List.length_append, List.length_cons, List.length_nil]
      congr 2
      rw [show s.port.bits.length + (0 + 1) + l.length = s.port.bits.length + (l.length + 1) by omega]
      rfl

/-- A bit in phases that hold no byte of a reply completes its byte. -/
theorem State.clockBit_last {s : State} {b : Bool} (hc : s.port.phase ≠ .closed)
    (hw : ¬(s.port.phase = .waiting ∧ s.port.bits = [])) (hl : s.port.bits.length = 7) (hr : s.port.atRemoval = false) :
    s.clockBit b =
      (s.setPort { s.port with bits := [], ldo := s.port.ldoByte.map (fun x => x.getLsbD 0) }).takeByte
        (wordOfBits 8 (s.port.bits ++ [b])) := by
  unfold State.clockBit
  rw [if_neg hc, if_neg (by simp [hr]), State.lclkFall_eq hw]
  unfold State.lclkRise
  rw [if_neg (by show ¬ s.port.bits.length < 7; omega)]
  simp only [State.setPort_port, State.setPort_setPort, Port.drive, hl]

/-- A whole byte outside WAITING, and not the last of an accepted TAKE_NOTICE's response. -/
theorem State.clock_byte {s : State} {b : Byte} (hc : s.port.phase ≠ .closed) (hw : s.port.phase ≠ .waiting)
    (hb : s.port.bits = []) (hr : { s.port with bits := List.replicate 7 false }.atRemoval = false) :
    s.clock (sentBits b) =
      (s.setPort { s.port with ldo := s.port.ldoByte.map (fun x => x.getLsbD 0) }).takeByte b := by
  have h : sentBits b = (sentBits b).take 7 ++ [b.getLsbD 0] := rfl
  rw [h, State.clock_append,
    State.clock_part _ hc (by simp [hw]) (by rw [hb, List.length_take, sentBits_length]; decide) (by rw [sentBits_byte]; simp)]
  rw [State.clock_cons, State.clock_nil, State.clockBit_last (by exact hc) (by simp [hw])]
  · simp only [State.setPort_port, State.setPort_setPort, hb, List.nil_append, ← h, wordOfBits_sentBits]
    congr 2
  · simp [hb, sentBits_length]
  · rw [← hr]
    unfold Port.atRemoval Port.responseLength
    simp [hb, sentBits_length]

/-! ### The take -/

theorem PortCommand.ofCode_code (c : PortCommand) : PortCommand.ofCode c.code = some c := by cases c <;> rfl

theorem State.collect_setPort (s : State) (p : Port) (c : PortCommand) (args : List Byte) :
    (s.setPort p).collect c args = s.collect c args := by
  unfold State.collect
  simp only [State.setPort_points, State.setPort_setPort, State.answer_perform_setPort]

theorem State.takeCode_setPort (s : State) (p : Port) (code : Byte) : (s.setPort p).takeCode code = s.takeCode code := by
  unfold State.takeCode
  simp only [State.collect_setPort, State.setPort_control]
  rfl

/-- The code byte of a transaction. -/
theorem State.clock_code {s : State} {b : Byte} (hp : s.port.phase = .code) (hb : s.port.bits = []) :
    s.clock (sentBits b) = s.takeCode b := by
  rw [State.clock_byte (by simp [hp]) (by simp [hp]) hb (by simp [Port.atRemoval, hp])]
  unfold State.takeByte
  simp only [State.setPort_port, hp]
  exact State.takeCode_setPort _ _ _

/-- Argument bytes are still missing. -/
def ArgsMissing (t : PointTable) (c : PortCommand) (args : List Byte) : Prop :=
  ∀ n, argCount t c args = some n → args.length < n

theorem State.collect_missing {s : State} {c : PortCommand} {args : List Byte} (h : ArgsMissing s.points c args) :
    s.collect c args = s.setPort (Port.collecting c.code args (argCount s.points c args)) := by
  unfold State.collect
  cases hn : argCount s.points c args with
  | none => rfl
  | some n => exact if_pos (h n hn)

theorem State.collect_complete {s : State} {c : PortCommand} {args : List Byte} {n : Nat}
    (hn : argCount s.points c args = some n) (hl : n ≤ args.length) :
    s.collect c args = State.answer c.code (args.take n) (s.perform (args.take n) c) := by
  unfold State.collect
  rw [hn]
  exact if_neg (by omega)

/-- One argument byte. -/
theorem State.clock_argument {s : State} {c : PortCommand} {args : List Byte} {needed : Option Nat} (b : Byte) :
    (s.setPort (Port.collecting c.code args needed)).clock (sentBits b) = s.collect c (args ++ [b]) := by
  rw [State.clock_byte (by simp [Port.collecting]) (by simp [Port.collecting]) rfl
    (by simp [Port.atRemoval, Port.collecting])]
  unfold State.takeByte State.takeArgument
  simp only [State.setPort_port, Port.collecting, Option.bind_some, PortCommand.ofCode_code]
  rw [State.setPort_setPort, State.collect_setPort]

/-- Argument bytes none of which but the last can complete the command. -/
theorem State.clock_arguments {s : State} {c : PortCommand} (args rest : List Byte)
    (h : ∀ k < rest.length, ArgsMissing s.points c (args ++ rest.take k)) :
    (s.collect c args).clock (portBits rest) = s.collect c (args ++ rest) := by
  induction rest generalizing args with
  | nil => rw [List.append_nil]; rfl
  | cons b l ih =>
    have h0 : ArgsMissing s.points c args := by simpa using h 0 (by simp)
    rw [portBits_cons, State.clock_append, State.collect_missing h0, State.clock_argument, ih]
    · rw [List.append_assoc, List.singleton_append]
    · intro k hk
      simpa using h (k + 1) (by simpa using hk)

/-- A transaction up to a byte before which the command's argument bytes are not complete (R181, R182, R195). -/
theorem State.transact_command {s : State} {c : PortCommand} (args : List Byte) (hp : s.port.phase = .code)
    (hb : s.port.bits = []) (hc : c.classOf.opens s.control.state = true)
    (h : ∀ k < args.length, ArgsMissing s.points c (args.take k)) :
    s.transact (some c) (portBits (c.code :: args)) = s.collect c args := by
  have hs : s.port.spells (some c) (portBits (c.code :: args)) = true := by
    unfold Port.spells Port.picks
    rw [hp, hb, portBits_cons, List.nil_append]
    simp only [List.take_left' (sentBits_length c.code), wordOfBits_sentBits, PortCommand.ofCode_code]
    simp
  unfold State.transact
  rw [if_pos hs, portBits_cons, State.clock_append, State.clock_code hp hb]
  unfold State.takeCode
  rw [PortCommand.ofCode_code]
  simp only [hc, if_true]
  have := State.clock_arguments (s := s) (c := c) [] args (by simpa using h)
  simpa using this

/-- A code byte that names no command. -/
theorem State.transact_badCommand {s : State} {code : Byte} (hp : s.port.phase = .code) (hb : s.port.bits = [])
    (hc : PortCommand.ofCode code = none) :
    s.transact none (portBits [code]) = s.setPort (Port.taken code [] (Reply.refusal .badCommand)) := by
  have hs : s.port.spells none (portBits [code]) = true := by
    unfold Port.spells Port.picks
    rw [hp, hb, portBits_cons, List.nil_append]
    simp only [List.take_left' (sentBits_length code), wordOfBits_sentBits, hc]
    simp
  unfold State.transact
  rw [if_pos hs, portBits_cons, State.clock_append, State.clock_code hp hb]
  unfold State.takeCode
  rw [hc]
  rfl

/-- A command outside its class (R181, R184). -/
theorem State.transact_badState {s : State} {c : PortCommand} (hp : s.port.phase = .code) (hb : s.port.bits = [])
    (hc : c.classOf.opens s.control.state = false) :
    s.transact (some c) (portBits [c.code]) = s.setPort (Port.taken c.code [] (Reply.refusal .badState)) := by
  have hs : s.port.spells (some c) (portBits [c.code]) = true := by
    unfold Port.spells Port.picks
    rw [hp, hb, portBits_cons, List.nil_append]
    simp only [List.take_left' (sentBits_length c.code), wordOfBits_sentBits, PortCommand.ofCode_code]
    simp
  unfold State.transact
  rw [if_pos hs, portBits_cons, State.clock_append, State.clock_code hp hb]
  unfold State.takeCode
  rw [PortCommand.ofCode_code]
  simp only [hc]
  rfl

/-- A code byte of another command, or of none, is no event of this one (log 3). -/
theorem State.transact_other {s : State} {c : Option PortCommand} {code : Byte} (hp : s.port.phase = .code)
    (hb : s.port.bits = []) (hc : PortCommand.ofCode code ≠ c) : s.transact c (portBits [code]) = s := by
  have hs : s.port.spells c (portBits [code]) = false := by
    unfold Port.spells Port.picks
    rw [hp, hb, portBits_cons, List.nil_append]
    simp only [List.take_left' (sentBits_length code), wordOfBits_sentBits]
    simp [hc, portBits, sentBits_length]
  unfold State.transact
  rw [hs]
  rfl

/-- The meaning of every command is the clocking of its bits. -/
theorem exec_toInstr (c : PortCommand) (ldi : List Bool) (s : State) :
    exec (c.toInstr ldi) s = .next (s.transact (some c) ldi) := by cases c <;> rfl

/-- A whole command in its class, from the fall of LSEL: its owner acts on the argument bytes (R181, R182). -/
theorem exec_taken {s : State} {c : PortCommand} {i : Instr} {args : List Byte}
    (hi : i = c.toInstr (portBits (c.code :: args))) (hs : s.port = Port.opened)
    (hc : c.classOf.opens s.control.state = true) (hm : ∀ k < args.length, ArgsMissing s.points c (args.take k))
    (hn : argCount s.points c args = some args.length) :
    exec i s = .next (State.answer c.code args (s.perform args c)) := by
  rw [hi, exec_toInstr, State.transact_command args (by rw [hs]; rfl) (by rw [hs]; rfl) hc hm,
    State.collect_complete hn (Nat.le_refl _), List.take_length]

/-! ### Everything that bits can do -/

/-- Whether the port has taken its command. -/
def Port.hasTaken (p : Port) : Bool := p.replying || p.phase == .trailing

theorem Port.hasTaken_eq_false {p : Port} :
    p.hasTaken = false ↔ p.phase = .closed ∨ p.phase = .code ∨ p.phase = .arguments := by
  unfold Port.hasTaken Port.replying
  cases p.phase <;> decide

/-- A bit after the take moves the port on, and may read a free value. -/
theorem State.clockBit_hasTaken {s : State} (b : Bool) (h : s.port.hasTaken = true) :
    ∃ p n, s.clockBit b = { s with port := p, freeCount := n } ∧ p.hasTaken = true ∧ p.reply = s.port.reply ∧
      p.code = s.port.code := by
  have hf : ∃ p n, s.lclkFall = { s with port := p, freeCount := n } ∧ p.hasTaken = true ∧ p.reply = s.port.reply ∧
      p.code = s.port.code := by
    unfold State.lclkFall
    split
    · dsimp only
      split
      · exact ⟨_, _, rfl, rfl, rfl, rfl⟩
      · exact ⟨_, _, rfl, h, rfl, rfl⟩
    · exact ⟨_, _, rfl, h, rfl, rfl⟩
  obtain ⟨p, n, hs, hp, hr, hc⟩ := hf
  unfold State.clockBit
  split
  next hcl => exact ⟨s.port, s.freeCount, rfl, h, rfl, rfl⟩
  split
  · exact ⟨p, n, hs, hp, hr, hc⟩
  · rw [hs]
    unfold State.lclkRise
    dsimp only
    split
    · exact ⟨_, _, rfl, hp, hr, hc⟩
    · unfold State.takeByte
      dsimp only [State.setPort_port]
      cases hph : p.phase <;> dsimp only
      · simp [Port.hasTaken, Port.replying, hph] at hp
      · simp [Port.hasTaken, Port.replying, hph] at hp
      · simp [Port.hasTaken, Port.replying, hph] at hp
      · exact ⟨_, _, rfl, by simp [Port.hasTaken, Port.replying], hr, hc⟩
      · unfold Port.advance
        dsimp only
        split <;> exact ⟨_, _, rfl, rfl, hr, hc⟩
      · unfold Port.advance
        dsimp only
        split <;> exact ⟨_, _, rfl, by simp [Port.hasTaken, Port.replying], hr, hc⟩
      · exact ⟨_, _, rfl, by simp [Port.hasTaken, Port.replying], hr, hc⟩

/-- Bits after the take move the port on, and may read free values. -/
theorem State.clock_hasTaken {s : State} (l : List Bool) (h : s.port.hasTaken = true) :
    ∃ p n, s.clock l = { s with port := p, freeCount := n } ∧ p.hasTaken = true ∧ p.reply = s.port.reply ∧
      p.code = s.port.code := by
  induction l generalizing s with
  | nil => exact ⟨s.port, s.freeCount, rfl, h, rfl, rfl⟩
  | cons b l ih =>
    obtain ⟨p, n, hs, hp, hr, hc⟩ := State.clockBit_hasTaken b h
    rw [State.clock_cons, hs]
    obtain ⟨p', n', hs', hp', hr', hc'⟩ := ih (s := { s with port := p, freeCount := n }) hp
    exact ⟨p', n', hs', hp', hr'.trans hr, hc'.trans hc⟩

/-- What the collection of bytes comes to: more are missing, or the command is taken. -/
theorem State.collect_cases (s : State) (c : PortCommand) (args : List Byte) :
    (∃ needed, s.collect c args = s.setPort (Port.collecting c.code args needed)) ∨
      ∃ n, argCount s.points c args = some n ∧ n ≤ args.length ∧
        s.collect c args = State.answer c.code (args.take n) (s.perform (args.take n) c) := by
  unfold State.collect
  cases hn : argCount s.points c args with
  | none => exact .inl ⟨none, rfl⟩
  | some n =>
    dsimp only
    split
    · exact .inl ⟨some n, rfl⟩
    next h => exact .inr ⟨n, rfl, by omega, rfl⟩

/-- A bit before the take: no byte is complete, or the byte leaves bytes missing; the command is refused by its code or
class; or it is taken. -/
theorem State.clockBit_cases {s : State} (b : Bool) (ht : s.port.hasTaken = false) (hr : s.port.reply = none)
    (hb : s.port.bits.length ≤ 7) :
    (∃ p, s.clockBit b = s.setPort p ∧ p.hasTaken = false ∧ p.reply = none ∧ p.bits.length ≤ 7 ∧
      (∀ l, p.picks l = s.port.picks (b :: l)) ∧
      (s.port.phase = .code → p.phase = .code ∧ p.bits.length = s.port.bits.length + 1 ∨ s.port.bits.length = 7)) ∨
    (∃ code r, s.clockBit b = s.setPort (Port.taken code [] (Reply.refusal r)) ∧ (r = .badCommand ∨ r = .badState)) ∨
    ∃ c args n, (∀ l, s.port.picks (b :: l) = some c) ∧ argCount s.points c args = some n ∧ n ≤ args.length ∧
      s.clockBit b = State.answer c.code (args.take n) (s.perform (args.take n) c) ∧
      (s.port.phase = .code → s.port.bits.length = 7) := by
  rcases Port.hasTaken_eq_false.1 ht with hp | hp | hp
  · refine .inl ⟨s.port, ?_, ht, hr, hb, fun l => by simp [Port.picks, hp], by simp [hp]⟩
    unfold State.clockBit
    rw [if_pos hp]
    rfl
  · by_cases h7 : s.port.bits.length < 7
    · refine .inl ⟨_, State.clock_part [b] (by simp [hp]) (by simp [hp]) (by simp; omega) (by simp), ?_, hr, ?_, ?_, ?_⟩
      · simp [Port.hasTaken, Port.replying, hp]
      · simp; omega
      · intro l; simp [Port.picks, hp]
      · simp [hp]
    · have h7 : s.port.bits.length = 7 := by omega
      rw [State.clockBit_last (by simp [hp]) (by simp [hp]) h7 (by simp [Port.atRemoval, hp])]
      have hk : ∀ l, s.port.picks (b :: l) = PortCommand.ofCode (wordOfBits 8 (s.port.bits ++ [b])) := by
        intro l
        simp only [Port.picks, hp]
        rw [show s.port.bits ++ b :: l = (s.port.bits ++ [b]) ++ l by simp, List.take_left' (by simp [h7])]
      unfold State.takeByte
      simp only [State.setPort_port, hp, State.takeCode_setPort]
      unfold State.takeCode
      cases hc : PortCommand.ofCode (wordOfBits 8 (s.port.bits ++ [b])) with
      | none => exact .inr (.inl ⟨_, _, rfl, .inl rfl⟩)
      | some c =>
        dsimp only
        split
        · rcases State.collect_cases s c [] with ⟨m, h⟩ | ⟨n, h1, h2, h3⟩
          · refine .inl ⟨_, h, rfl, rfl, by simp [Port.collecting], fun l => ?_, fun _ => .inr h7⟩
            rw [hk, hc]
            exact PortCommand.ofCode_code c
          · exact .inr (.inr ⟨c, [], n, fun l => by rw [hk, hc], h1, h2, h3, fun _ => h7⟩)
        · exact .inr (.inl ⟨_, _, rfl, .inr rfl⟩)
  · by_cases h7 : s.port.bits.length < 7
    · refine .inl ⟨_, State.clock_part [b] (by simp [hp]) (by simp [hp]) (by simp; omega) (by simp), ?_, hr, ?_, ?_, ?_⟩
      · simp [Port.hasTaken, Port.replying, hp]
      · simp; omega
      · intro l; simp [Port.picks, hp]
      · simp [hp]
    · have h7 : s.port.bits.length = 7 := by omega
      rw [State.clockBit_last (by simp [hp]) (by simp [hp]) h7 (by simp [Port.atRemoval, hp])]
      have hk : ∀ l, s.port.picks l = s.port.code.bind PortCommand.ofCode := fun l => by simp [Port.picks, hp]
      unfold State.takeByte
      simp only [State.setPort_port, hp]
      unfold State.takeArgument
      simp only [State.setPort_port]
      cases hc : s.port.code.bind PortCommand.ofCode with
      | none =>
        refine .inl ⟨_, rfl, ?_, hr, by simp, fun l => ?_, by simp⟩
        · simp [Port.hasTaken, Port.replying]
        · simp [Port.picks, hp]
      | some c =>
        dsimp only
        rw [State.collect_setPort]
        rcases State.collect_cases s c (s.port.args ++ [wordOfBits 8 (s.port.bits ++ [b])]) with ⟨m, h⟩ | ⟨n, h1, h2, h3⟩
        · refine .inl ⟨_, h, rfl, rfl, by simp [Port.collecting], fun l => ?_, by simp⟩
          rw [hk, hc]
          exact PortCommand.ofCode_code c
        · exact .inr (.inr ⟨c, _, n, fun l => by rw [hk, hc], h1, h2, h3, by simp⟩)

/-- Everything that bits can do before the take: the command is not taken yet; it is refused by its code or class; or its
owner has acted once, and further bits have moved the reply on. -/
theorem State.clock_cases {s : State} (l : List Bool) (ht : s.port.hasTaken = false) (hr : s.port.reply = none)
    (hb : s.port.bits.length ≤ 7) :
    (∃ p, s.clock l = s.setPort p ∧ p.hasTaken = false ∧ p.reply = none) ∨
    (∃ p n r, s.clock l = { s with port := p, freeCount := n } ∧ p.hasTaken = true ∧
      p.reply = some (Reply.refusal r) ∧ (r = .badCommand ∨ r = .badState)) ∨
    ∃ c args n p k, s.port.picks l = some c ∧ (s.port.phase = .code → 8 ≤ (s.port.bits ++ l).length) ∧
      argCount s.points c args = some n ∧ n ≤ args.length ∧
      s.clock l = { (s.perform (args.take n) c).2 with port := p, freeCount := k } ∧ p.hasTaken = true ∧
      p.reply = some (s.perform (args.take n) c).1 ∧ p.code = some c.code := by
  induction l generalizing s with
  | nil => exact .inl ⟨s.port, rfl, ht, hr⟩
  | cons b l ih =>
    rw [State.clock_cons]
    rcases State.clockBit_cases b ht hr hb with ⟨p, hs, h1, h2, h3, h4, h5⟩ | ⟨code, r, hs, h1⟩ |
      ⟨c, args, n, h1, h2, h3, hs, h5⟩
    · rw [hs, ← h4]
      rcases ih (s := s.setPort p) h1 h2 h3 with ⟨q, h, h'⟩ | ⟨q, m, r, h, h'⟩ |
        ⟨c, args, n, q, k, g1, g0, g2, g3, h, g4, g5, g6⟩
      · exact .inl ⟨q, h, h'⟩
      · exact .inr (.inl ⟨q, m, r, h, h'⟩)
      · rw [State.perform_setPort] at h g5
        refine .inr (.inr ⟨c, args, n, q, k, g1, fun hp => ?_, g2, g3, h, g4, g5, g6⟩)
        rcases h5 hp with ⟨e1, e2⟩ | e
        · have := g0 e1
          simp only [State.setPort_port, List.length_append] at this
          simp only [List.length_append, List.length_cons]
          omega
        · simp only [List.length_append, List.length_cons]
          omega
    · rw [hs]
      obtain ⟨p, n, h, hp, hr', _⟩ := State.clock_hasTaken (s := s.setPort (Port.taken code [] (Reply.refusal r))) l rfl
      exact .inr (.inl ⟨p, n, r, h, hp, hr', h1⟩)
    · rw [hs]
      obtain ⟨p, k, h, hp, hr', hc'⟩ := State.clock_hasTaken
        (s := State.answer c.code (args.take n) (s.perform (args.take n) c)) l rfl
      refine .inr (.inr ⟨c, args, n, p, k, h1 l, fun hp => ?_, h2, h3, h, hp, hr', hc'⟩)
      have := h5 hp
      simp only [List.length_append, List.length_cons]
      omega
end Sys2Proof.Machine
end

