-- ==== Sys2Proof/Laws/Tables.lean ====
section
/-! SUPPORT. Laws/Tables.lean: what inserting, finding and erasing do to a table kept in the order of its keys, and
membership in index sets. -/

namespace Sys2Proof.Machine

open Sys2Proof

variable {α : Type} {key : α → Nat}

/-! ### Tables -/

theorem mem_tableInsert {x z : α} {l : List α} (h : z ∈ tableInsert key x l) : z = x ∨ z ∈ l := by
  induction l with
  | nil => simpa [tableInsert] using h
  | cons y ys ih =>
    unfold tableInsert at h
    split at h
    · simpa using h
    · split at h
      · rcases List.mem_cons.1 h with h | h
        · exact .inl h
        · exact .inr (List.mem_cons_of_mem _ h)
      · rcases List.mem_cons.1 h with h | h
        · exact .inr (h ▸ List.mem_cons_self)
        · exact (ih h).imp_right (List.mem_cons_of_mem _)

theorem tableInsert_self_mem (x : α) (l : List α) : x ∈ tableInsert key x l := by
  induction l with
  | nil => simp [tableInsert]
  | cons y ys ih =>
    unfold tableInsert
    split
    · simp
    · split
      · simp
      · exact List.mem_cons_of_mem _ ih

theorem tableInsert_sorted {x : α} {l : List α} (h : tableSorted key l) : tableSorted key (tableInsert key x l) := by
  induction l with
  | nil => simp [tableInsert]
  | cons y ys ih =>
    have ⟨hy, hys⟩ := List.pairwise_cons.1 h
    unfold tableInsert
    split
    next hlt =>
      refine List.pairwise_cons.2 ⟨fun z hz => ?_, h⟩
      rcases List.mem_cons.1 hz with rfl | hz
      · exact hlt
      · exact Nat.lt_trans hlt (hy z hz)
    next hge =>
      split
      next heq => exact List.pairwise_cons.2 ⟨fun z hz => heq ▸ hy z hz, hys⟩
      next hne =>
        refine List.pairwise_cons.2 ⟨fun z hz => ?_, ih hys⟩
        rcases mem_tableInsert hz with rfl | hz
        · omega
        · exact hy z hz

theorem tableErase_sorted {k : Nat} {l : List α} (h : tableSorted key l) : tableSorted key (tableErase key k l) :=
  h.filter _

theorem mem_tableErase {k : Nat} {l : List α} {z : α} : z ∈ tableErase key k l ↔ z ∈ l ∧ key z ≠ k := by
  simp [tableErase]

/-- A change of records that keeps every key keeps the order. -/
theorem map_sorted {f : α → α} (hf : ∀ a, key (f a) = key a) {l : List α} (h : tableSorted key l) :
    tableSorted key (l.map f) := by
  refine List.pairwise_map.2 (h.imp ?_)
  intro a b hab
  simpa [hf] using hab

theorem tableFind_mem {k : Nat} {l : List α} {x : α} (h : tableFind key k l = some x) : x ∈ l ∧ key x = k :=
  ⟨List.mem_of_find?_eq_some h, by simpa using List.find?_some h⟩

theorem tableFind_none {k : Nat} {l : List α} : tableFind key k l = none ↔ ∀ x ∈ l, key x ≠ k := by
  simp [tableFind]

/-- In a sorted table every record is the one found at its key. -/
theorem tableFind_of_mem {l : List α} {x : α} (h : tableSorted key l) (hx : x ∈ l) :
    tableFind key (key x) l = some x := by
  induction l with
  | nil => cases hx
  | cons y ys ih =>
    have ⟨hy, hys⟩ := List.pairwise_cons.1 h
    rcases List.mem_cons.1 hx with rfl | hx
    · simp [tableFind]
    · have hne : key y ≠ key x := Nat.ne_of_lt (hy x hx)
      have := ih hys hx
      simpa [tableFind, List.find?_cons, hne] using this

theorem tableFind_tableInsert_self (x : α) (l : List α) : tableFind key (key x) (tableInsert key x l) = some x := by
  induction l with
  | nil => simp [tableInsert, tableFind]
  | cons y ys ih =>
    unfold tableInsert
    split
    · simp [tableFind]
    · split
      · simp [tableFind]
      next hne =>
        have : key y ≠ key x := fun h => hne h.symm
        simpa [tableFind, List.find?_cons, this] using ih

theorem tableFind_tableInsert_other {x : α} {k : Nat} (hk : k ≠ key x) (l : List α) :
    tableFind key k (tableInsert key x l) = tableFind key k l := by
  induction l with
  | nil => simp [tableInsert, tableFind, hk.symm]
  | cons y ys ih =>
    unfold tableInsert
    split
    · simp [tableFind, List.find?_cons, hk.symm]
    · split
      next heq =>
        have : key y ≠ k := fun h => hk (by omega)
        simp [tableFind, hk.symm, this]
      next =>
        by_cases hy : key y = k
        · simp [tableFind, hy]
        · simpa [tableFind, List.find?_cons, hy] using ih

/-! ### Index sets -/

theorem IndexSet.ext {s t : IndexSet} (h : ∀ i, IndexSet.mem s i = IndexSet.mem t i) : s = t := by
  apply BitVec.eq_of_getLsbD_eq
  intro k hk
  have := h (BitVec.ofNat 6 k)
  simpa [IndexSet.mem, Nat.mod_eq_of_lt hk] using this

@[simp] theorem IndexSet.mem_zero (i : Index) : IndexSet.mem 0#64 i = false := by simp [IndexSet.mem]

@[simp] theorem IndexSet.mem_single (i j : Index) : IndexSet.mem (IndexSet.single i) j = decide (i = j) := by
  have hi : i.toNat < 64 := i.isLt
  simp only [IndexSet.mem, IndexSet.single, BitVec.getLsbD_twoPow, hi, decide_true, Bool.true_and]
  exact decide_eq_decide.2 BitVec.toNat_inj

@[simp] theorem IndexSet.mem_insert (s : IndexSet) (i j : Index) :
    IndexSet.mem (IndexSet.insert s i) j = (IndexSet.mem s j || decide (i = j)) := by
  rw [← IndexSet.mem_single]
  simp [IndexSet.mem, IndexSet.insert]

@[simp] theorem IndexSet.mem_diff (s t : IndexSet) (i : Index) :
    IndexSet.mem (IndexSet.diff s t) i = (IndexSet.mem s i && !IndexSet.mem t i) := by
  have hi : i.toNat < 64 := i.isLt
  simp [IndexSet.mem, IndexSet.diff, hi]

@[simp] theorem IndexSet.mem_erase (s : IndexSet) (i j : Index) :
    IndexSet.mem (IndexSet.erase s i) j = (IndexSet.mem s j && !decide (i = j)) := by
  have := IndexSet.mem_diff s (IndexSet.single i) j
  simpa [IndexSet.diff, IndexSet.erase] using this

@[simp] theorem IndexSet.mem_and (s t : IndexSet) (i : Index) :
    IndexSet.mem (s &&& t) i = (IndexSet.mem s i && IndexSet.mem t i) := by simp [IndexSet.mem]

@[simp] theorem IndexSet.mem_or (s t : IndexSet) (i : Index) :
    IndexSet.mem (s ||| t) i = (IndexSet.mem s i || IndexSet.mem t i) := by simp [IndexSet.mem]

theorem IndexSet.subset_iff (s t : IndexSet) :
    IndexSet.subset s t = true ↔ ∀ i, IndexSet.mem s i = true → IndexSet.mem t i = true := by
  constructor
  · intro h i hi
    have h0 : IndexSet.diff s t = 0 := by simpa [IndexSet.subset] using h
    have := IndexSet.mem_diff s t i
    rw [h0, hi] at this
    simpa using this
  · intro h
    have h0 : IndexSet.diff s t = 0 := IndexSet.ext (fun i => by
      have := h i
      cases hs : IndexSet.mem s i <;> simp_all)
    simp [IndexSet.subset, h0]

theorem IndexSet.mem_foldl_insert (l : List Index) (s : IndexSet) (i : Index) :
    IndexSet.mem (l.foldl IndexSet.insert s) i = (IndexSet.mem s i || l.contains i) := by
  induction l generalizing s with
  | nil => simp
  | cons j l ih =>
    simp only [List.foldl_cons, ih, IndexSet.mem_insert, List.contains_cons, Bool.or_assoc]
    congr 2
    by_cases h : j = i
    · simp [h]
    · have h' : (i == j) = false := by simpa using fun e => h e.symm
      simp [h, h']

@[simp] theorem IndexSet.mem_ofList (l : List Index) (i : Index) :
    IndexSet.mem (IndexSet.ofList l) i = l.contains i := by
  simp [IndexSet.ofList, IndexSet.mem_foldl_insert]

theorem mem_allIndexes (i : Index) : i ∈ allIndexes :=
  List.mem_map.2 ⟨i.toNat, by simpa using i.isLt, by simp⟩

@[simp] theorem IndexSet.mem_ofPred (p : Index → Bool) (i : Index) : IndexSet.mem (IndexSet.ofPred p) i = p i := by
  simp [IndexSet.ofPred, mem_allIndexes]

theorem IndexSet.mem_members (s : IndexSet) (i : Index) : i ∈ IndexSet.members s ↔ IndexSet.mem s i = true := by
  simp [IndexSet.members, mem_allIndexes]

end Sys2Proof.Machine
end

