-- ==== Sys2Proof/Laws/Records.lean ====
section
/-! SUPPORT. Laws/Records.lean: the record found at a station before and after a change of one record, and the marker
after a disowning. -/

namespace Sys2Proof.Machine

open Sys2Proof

theorem tableFind_cons {α : Type} (key : α → Nat) (k : Nat) (a : α) (l : List α) :
    tableFind key k (a :: l) = if key a = k then some a else tableFind key k l := by
  unfold tableFind
  by_cases h : key a = k <;> simp [h]

theorem PeerUnit.find?_station {u : PeerUnit} {n : Station} {r : PeerRecord} (h : u.find? n = some r) :
    r.station = n :=
  BitVec.eq_of_toNat_eq (tableFind_mem h).2

/-- The record of the station that is changed. -/
theorem State.find?_mapPeer_self {s : State} {n : Station} {f : PeerRecord → PeerRecord} {r : PeerRecord}
    (hf : ∀ r, (f r).station = r.station) (h : s.peers.find? n = some r) :
    (s.mapPeer n f).peers.find? n = some (f r) := by
  show tableFind _ _ (s.peers.records.map _) = _
  unfold PeerUnit.find? at h
  revert h
  induction s.peers.records with
  | nil => exact fun h => nomatch h
  | cons a l ih =>
    intro h
    rw [tableFind_cons] at h
    rw [List.map_cons, tableFind_cons]
    by_cases hn : a.station = n
    · rw [if_pos (by rw [hn])] at h
      cases h
      rw [if_pos hn, if_pos (by rw [hf, hn])]
    · have hne : a.station.toNat ≠ n.toNat := fun h => hn (BitVec.eq_of_toNat_eq h)
      rw [if_neg hne] at h
      rw [if_neg hn, if_neg hne, ih h]

/-- The record of another station. -/
theorem State.find?_mapPeer_other {n m : Station} {f : PeerRecord → PeerRecord} (s : State)
    (hf : ∀ r, (f r).station = r.station) (hm : m ≠ n) :
    (s.mapPeer n f).peers.find? m = s.peers.find? m := by
  show tableFind _ _ (s.peers.records.map _) = tableFind _ _ s.peers.records
  induction s.peers.records with
  | nil => rfl
  | cons a l ih =>
    rw [List.map_cons, tableFind_cons, tableFind_cons, ih]
    by_cases hn : a.station = n
    · have hne : n.toNat ≠ m.toNat := fun h => hm (BitVec.eq_of_toNat_eq h).symm
      rw [if_pos hn, if_neg (by rw [hf, hn]; exact hne), if_neg (by rw [hn]; exact hne)]
    · rw [if_neg hn]

/-- A disowning keeps the marker, and clears its owned mark when it names the station. -/
theorem State.disown_asking (s : State) (n : Station) :
    (s.disown n).peers.asking = s.peers.asking.map (fun a => { a with owned := a.owned && decide (a.target ≠ n) }) := by
  show s.peers.asking.map _ = _
  cases s.peers.asking with
  | none => rfl
  | some a => by_cases h : a.target = n <;> simp [h]

/-- The order of keys is the order of their twelve bits, so equal ranks are equal keys. -/
theorem Key.rank_injective {k j : Key} (h : k.rank = j.rank) : k = j := by
  have hb : k.bits = j.bits := BitVec.eq_of_toNat_eq h
  obtain ⟨a, b⟩ := k
  obtain ⟨c, d⟩ := j
  have hc := congrArg (BitVec.extractLsb' 6 6) hb
  have hd := congrArg (BitVec.extractLsb' 0 6) hb
  rw [Key.bits, Key.bits, BitVec.extractLsb'_append_eq_of_le (Nat.le_refl 6),
    BitVec.extractLsb'_append_eq_of_le (Nat.le_refl 6)] at hc
  rw [Key.bits, Key.bits, BitVec.extractLsb'_append_eq_of_add_le (by decide),
    BitVec.extractLsb'_append_eq_of_add_le (by decide)] at hd
  have hc' : a = c := by simpa using hc
  have hd' : b = d := by simpa using hd
  rw [hc', hd']

end Sys2Proof.Machine
end

