-- ==== Sys2Proof/Laws/Station.lean ====
section
/-! SUPPORT. Laws/Station.lean: the closed forms of the operations that station control, the arbiter and the frame unit
share: entering LISTENING, the choice of a want, the end of an own assembly, the rise of a tally. -/

namespace Sys2Proof.Machine

open Sys2Proof

theorem Tally.rise_eq (t : Word16) : Tally.rise t = if t = 65535 then 65535 else t + 1 := by
  unfold Tally.rise
  by_cases h : t = 65535
  · rw [if_pos h, if_pos (by exact h), h]
  · rw [if_neg h, if_neg (by exact h)]

/-- Entry to LISTENING, every block at once. -/
theorem State.enterListening_eq (s : State) (cause : Cause) :
    s.enterListening cause =
      { s with
        control := { s.control with
          state := .listening cause
          withdrawPending := false
          lineTroubleCount := 0
          joinTimer := s.control.joinTimer.hold
          helloHold := .stopped }
        publication := s.publication.hold
        peers := s.peers.mapWaits Timer.hold
        arbiter := { s.arbiter with failures := 0 }
        notices := s.notices.offer ⟨.state s.ownNumber (.listening cause), s.control.clock⟩ } := rfl

/-- The end of the own frame under assembly, if there is one. -/
theorem State.finishOwn_eq (s : State) :
    s.finishOwn =
      { s with
        line := { s.line with
          early := if s.line.drive.isHeard = true ∧ s.frame.assembly ≠ none then .waiting else s.line.early }
        frame := { s.frame with assembly := if s.line.drive.isHeard = true then none else s.frame.assembly } } := by
  unfold State.finishOwn
  cases hd : s.line.drive.isHeard
  · simp
  · cases h : s.frame.assembly with
    | none => simp [← h]
    | some a => simp [State.finishAssembly, State.setAssembly, State.setFrame, State.setLine]

/-- When the station may transmit (R150). -/
theorem State.mayTransmit_iff (s : State) :
    s.mayTransmit = true ↔
      (s.control.state = .joining ∨ s.control.state = .inService) ∧ s.control.withdrawPending = false ∧
        s.line.condition = .idle ∧ s.arbiter.inFlight = none := by
  simp [State.mayTransmit, and_assoc]

/-- Wants that are not raised or not offered are passed over. -/
theorem State.startFirst_skip {s : State} {before : List Want} (rest : List Want)
    (h : ∀ v ∈ before, (s.arbiter.wants.raised v && s.offered v) = false) :
    s.startFirst (before ++ rest) = s.startFirst rest := by
  induction before with
  | nil => rfl
  | cons v l ih =>
    rw [List.cons_append, State.startFirst, if_neg (by simp [h v (by simp)])]
    exact ih (fun w hw => h w (by simp [hw]))

/-- The first want that is raised, offered and supplied is launched. -/
theorem State.startFirst_launch {s t : State} {w : Want} {f : Frame} (rest : List Want)
    (h : (s.arbiter.wants.raised w && s.offered w) = true) (hc : s.contents w = some (f, t)) :
    s.startFirst (w :: rest) = t.launch w f := by
  rw [State.startFirst, if_pos h]
  simp only [hc]

end Sys2Proof.Machine
end

