-- ==== Sys2Proof/WellFormed.lean ====
section
/-! DEFINITION. WellFormed.lean: what a command must satisfy to be one the station can meet. The steps do not
rest on it: an ill-formed command is an event that cannot happen, and changes nothing (log 3). -/

namespace Sys2Proof

/-- The checks on a command's operands: a timer expiry names a station (R49), the cells of LINE_BUSY stop before the
frame's last check bit, which is FRAME_END's (R119). Which bits a local-port command can carry depends on the bits
before them (Port.spells). -/
def Instr.wellFormed : Instr → Bool
  | .transactionOpen => true
  | .transactionClose => true
  | .badCommand _ => true
  | .setIdentity _ => true
  | .setTiming _ => true
  | .declarePoint _ => true
  | .setWindow _ => true
  | .commit _ => true
  | .readStatus _ => true
  | .readPoint _ => true
  | .takeNotice _ => true
  | .readPeer _ => true
  | .readTallies _ => true
  | .clearFault _ => true
  | .writePoint _ => true
  | .recallPeer _ => true
  | .withdraw _ => true
  | .rejoin _ => true
  | .restart _ => true
  | .coldReset => true
  | .noticeRemoval => true
  | .lineBusy cells => Machine.unfinished (cells.map Machine.sampledBit)
  | .lineIdle _ => true
  | .lineBreak _ => true
  | .stuck => true
  | .stuckEnd => true
  | .earlyEdge => true
  | .frameEnd _ => true
  | .transmitStart => true
  | .completed => true
  | .lost => true
  | .bitError _ => true
  | .failed => true
  | .publishTimerExpiry => true
  | .beaconTimerExpiry => true
  | .silenceTimerExpiry peer => Machine.namesStation peer
  | .recallWaitExpiry peer => Machine.namesStation peer
  | .joinExpiry => true
  | .helloHoldExpiry => true
  | .millisecondClockAdvance => true
  | .breakEnd => true

end Sys2Proof
end

