-- ==== Sys2Proof/Tests/Slice0.lean ====
section
/-! SUPPORT. Tests/Slice0.lean: the well-formedness smoke, the manual's own examples, and for each statement with
hypotheses a state and operands that meet them. -/

namespace Sys2Proof.Tests

open Sys2Proof Sys2Proof.Machine

/-! ### Well-formedness: each check refuses an ill-formed command -/

theorem test_wellFormed_peer :
    (Instr.silenceTimerExpiry 0).wellFormed = false ∧ (Instr.recallWaitExpiry 63).wellFormed = false ∧
      (Instr.silenceTimerExpiry 62).wellFormed = true ∧ (Instr.recallWaitExpiry 1).wellFormed = true := by decide

/-- A frame as the cells that the line gives. -/
def cellsOf (w : WireFrame) : List Level := (wireBits w).map (fun b => if b then .high else .low)

/-- LINE_BUSY has the cells of a frame short of its last check bit at most. -/
theorem test_wellFormed_cells :
    (Instr.lineBusy (cellsOf ⟨0x49E2, [7, 40], 0⟩)).wellFormed = false ∧
      (Instr.lineBusy (cellsOf ⟨0x49E2, [7, 40], 0⟩).dropLast).wellFormed = true := by decide

/-! ### Small states -/

/-- The state that a step answers. -/
def after (r : Result) : State :=
  match r with
  | .next t => t
  | .fault _ => .reset
  | .refused _ => .reset

/-- A transaction has been opened. -/
def opened (s : State) : State := s.setPort Port.opened

/-- A record of station 12 that needs index 3 and has its ASK due. -/
def peer : PeerRecord :=
  ⟨12, .recovering, 3, some 19, some 0x29, some 40, interestSet (Vector.replicate 8 Window.default |>.set 0
    ⟨true, ⟨12, 0⟩, ⟨0, 63⟩, .onEvery⟩) (some 5) 12, 8, 0, true, false, 0, .running .silence 10, .stopped⟩

/-- A mirrored entry of station 12. -/
def mirror : MirrorEntry := ⟨⟨12, 5⟩, .one, .valid, [0x42], 1, 0, false⟩

/-- Station 5 in service on a free line: the urgent own point 3 of one byte waits in an open round, and station 12 is
known. -/
def serving : State :=
  { State.reset with
    control := { Control.reset with state := .inService, helloDone := true, station := some 5, epoch := 7 }
    line := ⟨.idle, .idle, .none⟩
    arbiter := { Arbiter.reset with wants := ⟨true, false, true, true, false, false⟩ }
    points := ⟨[⟨3, .one, true, [9]⟩], [⟨3, .one, true, [9], none⟩], [mirror]⟩
    publication := { Publication.reset with publishSet := [3], round := .opened 0 }
    peers := ⟨[peer], [], none⟩
    notices := { NoticeUnit.reset with
      windows := Vector.replicate 8 Window.default |>.set 0 ⟨true, ⟨12, 0⟩, ⟨0, 63⟩, .onEvery⟩ } }

/-- The station in another state. -/
def inState (s : State) (st : StationState) : State := s.setControl { s.control with state := st }

/-- A frame of a want in flight, its cells being sent. -/
def flying (s : State) (w : Want) : State :=
  (s.setArbiter { s.arbiter with inFlight := some w }).setLine ⟨.busy, .sending ⟨0, [], 0⟩, .none⟩

/-- An own UPDATE with point 3 in flight. -/
def updating : State :=
  flying
    (serving.setPublication
      { serving.publication with publishSet := [], flight := some ⟨true, 0, [⟨3, .one, 0, [9]⟩]⟩ }) .alarm

/-- A frame from another station under assembly, of which the first bits of a frame have been received. -/
def hearingBits (s : State) (bits : List Bool) : State :=
  (s.setCondition .busy).setFrame { s.frame with assembly := some ⟨bits, false, .foreign⟩ }

/-- A frame from another station under assembly, no bit of it received. -/
def hearing : State := hearingBits serving []

/-- A BEACON of a station. -/
def beaconFrom (n : Station) : Frame := ⟨false, n, 3, .beacon 19 40 0x29⟩

/-- An item of index 5. -/
def item (version : Byte) (z : Size) (value : List Byte) : Item := ⟨5, z, version, value⟩

theorem test_serving_wellFormed :
    serving.notices.wf ∧ serving.portWf ∧ serving.collectingWf ∧ serving.flightWf ∧ serving.stationWf ∧ serving.publicationWf ∧
      serving.nothingForgotten ∧ serving.wantsWf ∧ serving.peersWf ∧ serving.mirrorsWf :=
  ⟨by decide, by decide, by decide, by decide, by decide, by decide, by decide, by decide,
    by decide, by decide⟩

/-- Cells that stop before a frame's last check bit end no frame, and FRAME_END's cells come at FRAME_END alone
(log 24). -/
theorem test_illFormed_cells_change_nothing :
    after (exec (.frameEnd (cellsOf (beaconFrom 12).toWire).dropLast) hearing) = hearing ∧
      hearing.takeCells (cellsOf (beaconFrom 12).toWire) = hearing := by decide +kernel

/-! ### The manual's examples -/

/-- The leads of file 11: an ASK of station 4 with 12 body bytes, and a HELLO of station 15 with 2. -/
theorem test_example_leads :
    leadUrgency 0x508C = 1 ∧ leadKind 0x508C = 2 ∧ leadSender 0x508C = 4 ∧ leadLength 0x508C = 12 ∧
      leadUrgency 0x49E2 = 1 ∧ leadKind 0x49E2 = 1 ∧ leadSender 0x49E2 = 15 ∧ leadLength 0x49E2 = 2 := by decide

theorem test_example_item : Item.toBytes ⟨5, .two, 3, [1, 0x42]⟩ = [0x15, 3, 1, 0x42] := by decide

theorem test_example_indexSet :
    IndexSet.toBytes (IndexSet.ofList [0, 3, 5, 9]) = [0, 0, 0, 0, 0, 0, 2, 0x29] := by decide

theorem test_example_packedKey : packedKeyArg 0xF3 0x05 = ⟨12, 5⟩ := by decide

theorem test_example_versions :
    versionRelation 11 10 = .newer ∧ versionRelation 3 250 = .newer ∧ versionRelation 250 3 = .older ∧
      versionRelation 127 0 = .newer ∧ versionRelation 128 0 = .older ∧ versionRelation 0 128 = .older := by decide

/-- The windows of R97: 8:32 with mask 1:31 takes stations 8 and 9, indexes 32..63. -/
theorem test_example_window :
    Window.matches ⟨true, ⟨8, 32⟩, ⟨1, 31⟩, .quiet⟩ ⟨9, 63⟩ = true ∧
      Window.matches ⟨true, ⟨8, 32⟩, ⟨1, 31⟩, .quiet⟩ ⟨10, 63⟩ = false ∧
      Window.matches ⟨true, ⟨8, 32⟩, ⟨1, 31⟩, .quiet⟩ ⟨9, 31⟩ = false ∧
      Window.matches ⟨true, ⟨16, 0⟩, ⟨15, 0⟩, .quiet⟩ ⟨31, 0⟩ = true := by decide

/-- The run of R34: 8, 8, 2 and 8 bytes give three items. -/
theorem test_example_fitting :
    (fitting 29 0 [⟨0, .eight, 0, []⟩, ⟨1, .eight, 0, []⟩, ⟨2, .two, 0, []⟩, ⟨3, .eight, 0, []⟩]).map Item.index =
      [0, 1, 2] := by decide

/-- The READ_PEER response of file 11. -/
theorem test_example_readPeer :
    PeerRecord.bytes { peer with need := 1 } Control.reset.timing =
      [1, 3, 0x13, 0, 0, 0, 0, 0, 0, 0, 0, 1, 0, 0x28] := by decide

/-- Heads 5 of 2 bytes, 9 of 8 and 3 of 4 parse in 20 item bytes, and not in 19 (file 06). -/
theorem test_example_parse :
    (itemsOf ([0x15, 0, 1, 2] ++ [0x27, 0, 1, 2, 3, 4, 5, 6, 7, 8] ++ [0x0E, 0, 1, 2, 3, 4])).map
        (List.map Item.index) = some [5, 9, 3] ∧
      itemsOf ([0x15, 0, 1, 2] ++ [0x27, 0, 1, 2, 3, 4, 5, 6, 7, 8] ++ [0x0E, 0, 1, 2, 3]) = none ∧
      itemsOf [0x1C, 0, 1, 0x1D, 0, 1, 2] = none := by decide

/-- A write is read back (R29, R21). -/
theorem test_example_writeThenRead :
    (after (exec (.readPoint (portBits [0x02, 5, 3])) (opened (after (exec (.writePoint (portBits [0x21, 3, 0x77])) (opened serving)))))).port.reply =
      some ⟨.ok, [3, 1, 0, 0x77, 0, 0]⟩ := by decide +kernel

/-! ### Hypotheses that are met: queue, reset, port -/

theorem test_witness_queue :
    ({ serving with pending := [.coldReset] } : State).pending = .coldReset :: [] ∧ serving.pending = [] := by decide

theorem test_witness_TransactionOpensAndCloses : State.reset.port.phase = .closed := by decide

/-- The words of R195's table: COMMIT, SET_IDENTITY with number 5 and epoch 7, and two bytes that name no command. -/
theorem test_words_spell_commands :
    decodeTableWord 8 0x15 = some (.commit (portBits [0x15])) ∧
      decodeTableWord 24 0x070511 = some (.setIdentity (portBits [0x11, 5, 7])) ∧ decodeTableWord 8 0xA5 = none ∧
      decodeTableWord 8 0x00 = none ∧
      (State.reset.withFetchWord 8 0x15).pending = [.commit (portBits [0x15])] := by decide

/-- Codes in and outside their class, with and without arguments, and none of the table. -/
theorem test_witness_CodeBytePicksItsCommand :
    (opened serving).port = Port.opened ∧ serving.control.state = .inService ∧
      (after (exec (.setTiming (portBits [0x12])) (opened serving))).port = Port.taken 0x12 [] ⟨.badState, []⟩ ∧
      (after (exec (.writePoint (portBits [0x21])) (opened serving))).port = Port.collecting 0x21 [] none ∧
      (after (exec (.badCommand (portBits [0x00])) (opened serving))).port = Port.taken 0x00 [] ⟨.badCommand, []⟩ ∧
      State.reset.control.state = .configuring ∧
      (after (exec (.setIdentity (portBits [0x11])) (opened .reset))).port = Port.collecting 0x11 [] (some 2) ∧
      (after (exec (.commit (portBits [0x15])) (opened .reset))).port = Port.taken 0x15 [] ⟨.badConfig, []⟩ ∧
      (after (exec (.commit (portBits [0x11])) (opened .reset))).port = Port.opened := by decide +kernel

/-- Station 5's number has been clocked and the epoch is missing. -/
def collecting : State := State.reset.setPort (Port.collecting 0x11 [5] (some 2))

theorem test_witness_RefusalsChangeNothingAndResponsesFit :
    (opened serving).portWf ∧ collecting.portWf ∧ collecting.port.phase = .arguments ∧
      (after (exec (.setIdentity [true, false]) collecting)).port.reply = none ∧
      serving.points.ownWf ∧ (∀ e ∈ serving.points.mirrored, e.value.length = e.size.bytes) ∧
      (after (exec (.readPoint (portBits [0x02, 12, 5])) (opened serving))).port.reply = some ⟨.ok, [0, 1, 1, 0x42, 0, 0]⟩ ∧
      (after (exec (.readPoint (portBits [0x02, 12, 6])) (opened serving))).port.reply = some ⟨.notFound, []⟩ :=
  ⟨by decide, by decide, by decide +kernel⟩

theorem test_witness_IncompleteCommandIsAbandoned :
    PortCommand.setIdentity.classOf.opens State.reset.control.state = true ∧
      argCount State.reset.points .setIdentity [5] = some 2 ∧ argCount State.reset.points .declarePoint [5] = none := by
  decide

/-- A command being collected, in its class and out of it. -/
theorem test_collecting_class : collecting.collectingWf ∧ ¬(inState collecting .joining).collectingWf := by decide

/-- Further bits of the transaction complete the command. -/
theorem test_arguments_go_on :
    (after (exec (.setIdentity (portBits [7])) collecting)).control =
      { State.reset.control with station := some 5, epoch := 7 } := by decide

/-- A reply at a phase, some bits of its byte sent. -/
def replying (phase : Phase) (reply : Reply) (sent : Nat) (bits : List Bool) : State :=
  serving.setPort ⟨phase, some 0x03, [], some 0, some reply, sent, bits, some true⟩

theorem test_witness_LdoCarriesTheReplyBitByBit :
    (opened serving).port.bits.length < 7 ∧ State.reset.port.phase = .closed ∧
      ((opened serving).clock [true, false]).port.ldo = some false ∧
      ((replying .waiting ⟨.ok, [0x81]⟩ 0 [false]).clock [true]).port.ldo = some false ∧
      ((replying .result ⟨.ok, [0x81]⟩ 0 (List.replicate 7 false)).clock [true]).port =
        ⟨.response, some 0x03, [], some 0, some ⟨.ok, [0x81]⟩, 0, [], some false⟩ ∧
      ((replying .result ⟨.empty, []⟩ 0 (List.replicate 7 false)).clock [true]).port =
        ⟨.trailing, some 0x03, [], some 0, some ⟨.empty, []⟩, 0, [], some true⟩ ∧
      ((replying .response ⟨.ok, [0x81, 0]⟩ 0 (List.replicate 7 false)).clock [true]).port =
        ⟨.response, some 0x03, [], some 0, some ⟨.ok, [0x81, 0]⟩, 1, [], some true⟩ ∧
      ((replying .response ⟨.ok, [0x81]⟩ 0 (List.replicate 7 false)).clock [true]).port =
        ⟨.response, some 0x03, [], some 0, some ⟨.ok, [0x81]⟩, 0, List.replicate 7 false, some true⟩ ∧
      ((replying .trailing ⟨.ok, [0x81]⟩ 1 []).clock [true]).port.ldo = some false := by decide

/-! ### Configuration and reads -/

theorem test_witness_configuration :
    (opened State.reset).port = Port.opened ∧ (opened State.reset).control.state = .configuring ∧
      (1 : Byte).toNat = 1 ∧ (62 : Byte).toNat = 62 ∧ (63 : Byte).toNat = 63 ∧
      (4 : Byte).toNat = 4 ∧ (7 : Byte).toNat = 7 ∧ (8 : Byte).toNat = 8 := by decide

theorem test_setTiming_bounds :
    (after (exec (.setTiming (portBits [0x12, 3, 4, 1, 3])) (opened State.reset))).port.reply = some ⟨.ok, []⟩ ∧
      (after (exec (.setTiming (portBits [0x12, 3, 4, 2, 3])) (opened State.reset))).port.reply = some ⟨.badArgument, []⟩ ∧
      (after (exec (.setTiming (portBits [0x12, 4, 0, 0, 0])) (opened State.reset))).port.reply = some ⟨.badArgument, []⟩ := by
  decide +kernel

theorem test_declarePoint_bounds :
    (after (exec (.declarePoint (portBits [0x13, 63, 0xFD, 1, 1, 2])) (opened State.reset))).points.declarations =
        [⟨63, .two, true, [1, 2]⟩] ∧
      (after (exec (.declarePoint (portBits [0x13, 64, 0, 0, 1])) (opened State.reset))).port.reply = some ⟨.badArgument, []⟩ ∧
      ([1, 2] : List Byte).length = (Size.ofCode ((0xFD : Byte).extractLsb' 0 2)).bytes := by decide +kernel

theorem test_setWindow_bounds :
    (after (exec (.setWindow (portBits [0x14, 7, 1, 0xF3, 5, 0, 63, 2])) (opened State.reset))).notices.windows[7] =
        ⟨true, ⟨12, 5⟩, ⟨0, 63⟩, .onEvery⟩ ∧
      (after (exec (.setWindow (portBits [0x14, 8, 1, 3, 5, 0, 63, 2])) (opened State.reset))).port.reply = some ⟨.badArgument, []⟩ := by
  decide +kernel

theorem test_witness_CommitCreatesOwnPointsAndJoins :
    (opened (inState serving .configuring)).control.station = some 5 ∧
      (opened (inState serving .configuring)).control.state = .configuring ∧
      (opened State.reset).control.station = none := by decide

theorem test_witness_reads :
    (opened serving).port = Port.opened ∧ serving.control.station = some ((5 : Byte).setWidth 6) ∧
      serving.points.own? 3 ≠ none ∧ serving.points.own? 4 = none ∧ serving.points.mirror? ⟨12, 5⟩ = some mirror ∧
      serving.points.mirror? ⟨12, 63⟩ = none ∧ serving.peers.find? 12 = some peer ∧ serving.peers.find? 62 = none := by
  decide

theorem test_witness_TakeNoticeReturnsTheHead :
    serving.notices.queue = [] ∧
      (serving.offer (.peer .new 12)).notices.queue = ⟨.peer .new 12, 0⟩ :: [] ∧
      (after (exec (.takeNotice (portBits [0x03])) (opened (serving.offer (.state 5 (.listening .duplicate)))))).port.reply =
        some ⟨.ok, [14, 5, 0, 0, 3, 3, 0, 0, 0]⟩ := by decide

theorem test_witness_ClearFault : (31 : Byte).toNat < 32 ∧ ¬(32 : Byte).toNat < 32 := by decide

/-! ### Commands after COMMIT -/

theorem test_witness_WritePoint :
    serving.control.state ≠ .configuring ∧ (3 : Byte).toNat ≤ 63 ∧
      serving.points.own? ((3 : Byte).setWidth 6) = some ⟨3, .one, true, [9], none⟩ ∧
      ([0x77] : List Byte).length = Size.one.bytes ∧ ¬(64 : Byte).toNat ≤ 63 ∧
      serving.points.own? ((63 : Byte).setWidth 6) = none := by decide

theorem test_witness_RecallPeer :
    serving.peers.find? ((12 : Byte).setWidth 6) = some peer ∧ peer.state ≠ .lost ∧
      0 ≠ (peer.interest &&& 0x29) ∧ { peer with interest := 0 }.interest &&& 0x29 = 0 ∧
      serving.peers.find? ((62 : Byte).setWidth 6) = none ∧
      (serving.mapPeer 12 (fun r => { r with state := .lost })).peers.find? ((12 : Byte).setWidth 6) =
        some { peer with state := .lost } := by decide

theorem test_witness_WithdrawRejoinRestart :
    serving.control.state = .inService ∧ serving.arbiter.inFlight = none ∧ updating.control.state = .inService ∧
      updating.arbiter.inFlight ≠ none ∧ serving.control.station = some 5 ∧
      (inState serving (.listening .command)).control.state = .listening .command := by decide

/-- RESTART keeps the frame under assembly that bears no own-frame mark (R146). -/
theorem test_restart_keeps_an_unmarked_frame :
    (after (exec (.restart (portBits [0x25])) (opened hearing))).frame.assembly = some ⟨[], false, .foreign⟩ ∧
      (after (exec (.restart (portBits [0x25])) (opened (hearing.setAssembly (some ⟨List.replicate 11 false, true, .driven⟩))))
        ).frame.assembly = none := by decide

/-! ### Notices and line -/

/-- Two windows match one key: the lower decides, quiet as it is; the own station has no interest. -/
theorem test_witness_WindowsGiveInterestAndMode :
    ∀ windows : Vector Window 8,
      windows = ((serving.notices.windows.set 2 ⟨true, ⟨12, 5⟩, ⟨0, 0⟩, .quiet⟩).set 7 ⟨true, ⟨9, 0⟩, ⟨0, 0⟩, .quiet⟩) →
      keyMode windows ⟨12, 5⟩ = some .onEvery ∧ keyMode windows ⟨9, 0⟩ = some .quiet ∧ keyMode windows ⟨9, 1⟩ = none ∧
        IndexSet.mem (interestSet windows (some 5) 12) 63 = true ∧
        IndexSet.mem (interestSet windows (some 12) 12) 63 = false := by
  rintro windows rfl
  decide

theorem test_witness_offers :
    keyMode serving.notices.windows ⟨12, 63⟩ = some .onEvery ∧ keyMode serving.notices.windows ⟨13, 0⟩ = none ∧
      (∃ r ∈ (serving.offer (.updated ⟨12, 5⟩ 2)).notices.queue, r.changeKey? = some ⟨12, 5⟩) ∧
      (∀ r ∈ serving.notices.queue, r.changeKey? ≠ some ⟨12, 5⟩) ∧
      keyMode (serving.notices.windows.set 0 ⟨true, ⟨12, 0⟩, ⟨0, 63⟩, .onChange⟩) ⟨12, 0⟩ = some .onChange ∧
      keyMode (serving.notices.windows.set 0 ⟨true, ⟨12, 0⟩, ⟨0, 63⟩, .quiet⟩) ⟨12, 0⟩ = some .quiet := by decide

theorem test_full_queue_loses :
    (NoticeUnit.append ⟨NoticeUnit.reset.windows, List.replicate 32 ⟨.peer .new 1, 0⟩, false, 0, .none⟩
        ⟨.peer .new 2, 0⟩).lostCount = 1 ∧
      (NoticeUnit.append ⟨NoticeUnit.reset.windows, List.replicate 31 ⟨.peer .new 1, 0⟩, false, 0, .none⟩
        ⟨.peer .new 2, 0⟩).queue.length = 32 := by decide

theorem test_witness_NoticeRemovalEndsTheTake :
    (after (exec (.takeNotice (portBits [0x03])) (opened (serving.offer (.peer .new 12))))).notices.mark = .taking ∧
      (after (exec (.takeNotice (portBits [0x03])) (opened (serving.offer (.updated ⟨12, 5⟩ 2))))
        |>.offer (.updated ⟨12, 5⟩ 3)).notices.mark = .changed := by decide

theorem test_witness_LineConditionFollowsTheLine :
    serving.line.condition = .idle ∧ serving.control.state ≠ .configuring ∧
      (serving.setCondition .busy).line.condition = .busy ∧ (serving.setCondition .lowBreak).line.condition = .lowBreak ∧
      (serving.setCondition .stuck).line.condition = .stuck ∧ hearing.finishAssembly.line.early = .waiting ∧
      (inState serving .configuring).control.state = .configuring := by decide

/-- A frame of another station that goes idle raises CUT. -/
theorem test_lineIdle_cuts : (after (exec (.lineIdle [.high]) hearing)).frame = { FrameUnit.reset with cut := 1 } := by
  decide

/-- An own frame before its mark, its drive in the given state. -/
def ownStart (drive : Drive) (origin : Origin) : State :=
  (serving.setLine ⟨.busy, drive, .none⟩).setAssembly (some ⟨[false], false, origin⟩)

/-- The cell that the low of tBRK makes, and the one that RESTART interrupts, leave an own frame own: its cut raises no
CUT. A further cell is another station's. -/
theorem test_own_frames_cut_without_tally :
    (after (exec (.bitError [.high]) (ownStart (.sending ⟨0, [], 0⟩) .driven))).frame.assembly =
        some ⟨[false, true], false, .driven⟩ ∧
      (after (exec (.lineBreak [.low]) (ownStart .breaking .driven))).frame = FrameUnit.reset ∧
      (after (exec (.restart (portBits [0x25])) (opened (ownStart (.sending ⟨0, [], 0⟩) .driven)))).frame.assembly =
        some ⟨[false], false, .driven⟩ ∧
      (after (exec (.lineIdle [.high]) (ownStart .idle .driven))).frame = FrameUnit.reset ∧
      (after (exec (.lineIdle [.high]) (ownStart .idle .ended))).frame = { FrameUnit.reset with cut := 1 } := by
  decide

/-- The last bit of the arbitration field, of the lead, and before the last check bit of a frame of two body bytes. -/
theorem test_witness_CellsFillTheAssemblyBuffer :
    serving.frame.assembly = none ∧ hearing.frame.assembly = some ⟨[], false, .foreign⟩ ∧
      ((flying (hearingBits serving (List.replicate 10 false)) .hello).takeCells [.low]).frame.assembly =
        some ⟨List.replicate 11 false, true, .foreign⟩ ∧
      ((flying (hearingBits serving (List.replicate 9 false)) .hello).takeCells [.low]).frame.assembly =
        some ⟨List.replicate 10 false, false, .foreign⟩ ∧
      (hearing.takeCells ((cellsOf ⟨0x49E2, [7, 40], 0⟩).take 16)).frame.assembly.map (fun a => leadOfBits a.bits) =
        some 0x49E2 ∧
      ((hearing.takeCells ((cellsOf ⟨0x49E2, [7, 40], 0⟩).take 47)).frame.assembly.map (fun a => a.bits.length)) = some 47 ∧
      (∀ k < 16, (0x49E2 : Word16).getLsbD (15 - k) = (((wireBits ⟨0x49E2, [7, 40], 0⟩).take 47)[k]?).getD false) := by
  decide

/-! ### Frames, items and peers -/

theorem test_witness_FramesReadBackExactlyAsBuilt :
    (beaconFrom 62).sendable ∧ (Frame.sendable ⟨true, 1, 0, .update 255 [⟨63, .eight, 255, [1, 2, 3, 4, 5, 6, 7, 8]⟩]⟩) ∧
      frameEnds (beaconFrom 62).toWire = true ∧ checkPasses (beaconFrom 62).toWire = true ∧
      validate (beaconFrom 62).toWire = some (beaconFrom 62) := by decide +kernel

theorem test_witness_FrameEndJudgesOneFrame :
    hearing.frame.assembly = some ⟨[], false, .foreign⟩ ∧ hearing.arbiter.inFlight = none ∧
      [] ++ (cellsOf ⟨0x49E2, [7, 40], 0⟩).map sampledBit = wireBits ⟨0x49E2, [7, 40], 0⟩ ∧
      frameEnds ⟨0x49E2, [7, 40], 0⟩ = true ∧ checkPasses ⟨0x49E2, [7, 40], 0⟩ = false ∧
      checkPasses ⟨0x49E2, [7, 0], checkValue 0x49E2 [7, 0]⟩ = true ∧
      validate ⟨0x49E2, [7, 0], checkValue 0x49E2 [7, 0]⟩ = none ∧
      validate (beaconFrom 5).toWire = some (beaconFrom 5) ∧ hearing.control.station = some (beaconFrom 5).sender ∧
      validate (beaconFrom 12).toWire = some (beaconFrom 12) ∧ hearing.control.station ≠ some (beaconFrom 12).sender := by
  decide +kernel

/-- The own frame's mark at its eleventh bit: ten bits before it while a frame is in flight, and eleven after it. -/
theorem test_own_frame_ends_untested :
    (after (exec (.frameEnd ((cellsOf (beaconFrom 5).toWire).drop 10))
        (flying (hearingBits serving ((wireBits (beaconFrom 5).toWire).take 10)) .beacon))).frame = FrameUnit.reset ∧
      (after (exec (.frameEnd ((cellsOf (beaconFrom 5).toWire).drop 11))
        ((hearingBits serving []).setAssembly (some ⟨(wireBits (beaconFrom 5).toWire).take 11, true, .foreign⟩))
        )).frame = FrameUnit.reset := by decide +kernel

/-- A full Peer Table of stations 1..32 with a given state and interest. -/
def fullPeers (st : PeerState) (interest : IndexSet) (loss : List Station) : State :=
  serving.setPeers
    ⟨(List.range 32).map (fun k =>
        { peer with station := BitVec.ofNat 6 (k + 1), state := st, interest := interest, need := 0, askDue := false }),
      loss, none⟩

theorem test_witness_GoodFrameReachesItsPeerRecord :
    frameEnds (beaconFrom 12).toWire = true ∧ checkPasses (beaconFrom 12).toWire = true ∧
      validate (beaconFrom 12).toWire = some (beaconFrom 12) ∧ hearing.control.station ≠ some 12 ∧
      hearing.peers.find? 12 = some peer ∧ hearing.peers.records.length < 32 ∧
      (fullPeers .lost 1 [7]).peers.lossList ≠ [] ∧ (∃ r ∈ (fullPeers .live 0 []).peers.records, r.interest = 0) ∧
      (after (exec (.frameEnd (cellsOf (beaconFrom 40).toWire)) (hearingBits (fullPeers .lost 1 [7, 3]) []))
        ).peers.records.map PeerRecord.station =
          ((List.range 32).map (fun k => (BitVec.ofNat 6 (k + 1) : Station))).filter (· ≠ 7) ++ [40] := by
  decide +kernel

theorem test_witness_UnknownSenderGetsARecordOrOverflows :
    serving.peers.find? 40 = none ∧ serving.peers.records.length < 32 ∧ 32 ≤ (fullPeers .live 0 []).peers.records.length ∧
      tableSorted (fun r : PeerRecord => r.station.toNat) (fullPeers .live 1 []).peers.records ∧
      (fullPeers .lost 1 [7]).peers.lossList.head? = some 7 ∧
      (∃ r ∈ (fullPeers .live 0 []).peers.records, r.interest = 0 ∧ r.station = 1) ∧
      (∀ r ∈ (fullPeers .live 0 []).peers.records, (1 : Station).toNat ≤ r.station.toNat) ∧
      (∀ r ∈ (fullPeers .live 1 []).peers.records, r.interest ≠ 0) ∧
      ((fullPeers .live 1 []).classify (beaconFrom 40)).control.faults.peerOverflow = true := by decide

/-- An UPDATE of station 12 in sequence. -/
def updateFrom12 (i : Index) : Frame := ⟨false, 12, 3, .update 19 [⟨i, .one, 7, [1]⟩]⟩

theorem test_witness_ClassificationTakesItsSteps :
    serving.peers.find? (updateFrom12 3).sender = some peer ∧ (beaconFrom 12).body.kind ≠ .ask ∧
      (serving.mapPeer 12 (fun r => { r with need := 0 })).peers.find? 12 = some { peer with need := 0 } ∧
      peer.state = .recovering ∧ peer.need ≠ 0 := by decide

/-- The need of index 3 emptied, left, and left covered by others. -/
theorem test_witness_ItemsOfAFrameReachThePointTable :
    validate (updateFrom12 3).toWire = some (updateFrom12 3) ∧ checkPasses (updateFrom12 3).toWire = true ∧
      hearing.control.state ≠ .listening .lineTrouble ∧ peer.epoch = (updateFrom12 3).epoch ∧ peer.expected = some 19 ∧
      (after (exec (.frameEnd (cellsOf (updateFrom12 3).toWire)) hearing)).notices.queue.map NoticeRecord.body =
        [.updated ⟨12, 3⟩ 7, .peer .recallDone 12] ∧
      ((after (exec (.frameEnd (cellsOf (updateFrom12 5).toWire)) hearing)).peers.find? 12).map PeerRecord.need = some 8 ∧
      ((after (exec (.frameEnd (cellsOf (updateFrom12 5).toWire))
          (hearing.mapPeer 12 (fun r => { r with need := 40, covered := 8 })))).peers.find? 12).map PeerRecord.attempts =
        some 1 := by decide +kernel

/-- The clauses at differences 1, 127, 0, 128 and 255, at a VALID entry. -/
theorem test_witness_ItemAtAValidEntry :
    serving.points.mirror? ⟨12, 5⟩ = some mirror ∧ mirror.state = .valid ∧
      (2 + 256 - 1) % 256 = 1 ∧ (128 + 256 - 1) % 256 = 127 ∧ (129 + 256 - 1) % 256 = 128 ∧ (0 + 256 - 1) % 256 = 255 ∧
      (serving.takeItem 12 0 .update (item 128 .one [1])).points.mirrored.map MirrorEntry.version = [128] ∧
      serving.takeItem 12 0 .resend (item 129 .one [1]) = serving ∧
      (serving.takeItem 12 0 .update (item 1 .two [1, 2])).notices.queue.length = 2 ∧
      (serving.takeItem 12 0 .update (item 1 .one [0x42])).notices.queue.map NoticeRecord.body =
        [.refreshed ⟨12, 5⟩ 1] := by decide

theorem test_witness_ItemAtADoubtedEntry :
    ((serving.setPoints (serving.points.suspectAll 12)).points.mirror? ⟨12, 5⟩ =
        some { mirror with state := .suspect }) ∧
      ((serving.setPoints (serving.points.staleAll 12)).points.mirror? ⟨12, 5⟩ = some { mirror with state := .stale }) ∧
      ((serving.setPoints (serving.points.suspectAll 12)).takeItem 12 0 .resend (item 129 .one [1])).points.mirrored.map
        MirrorEntry.state = [.valid] ∧
      ((serving.setPoints (serving.points.suspectAll 12)).takeItem 12 0 .update (item 129 .one [1])).points.mirrored.map
        MirrorEntry.state = [.suspect] := by decide

/-- A full table of mirrored entries, the lowest of them STALE and owned by a LOST peer. -/
def fullTable (lost : Bool) : State :=
  { serving with
    points := ⟨[], [], (List.range 256).map (fun k =>
      ⟨⟨BitVec.ofNat 6 (12 + k / 64), BitVec.ofNat 6 k⟩, .one, .stale, [0], 0, 0, false⟩)⟩
    peers := ⟨[{ peer with state := if lost then .lost else .silent }], [], none⟩ }

theorem test_witness_ItemAtAnAbsentKey :
    serving.points.mirror? ⟨12, 63⟩ = none ∧ IndexSet.mem peer.interest 63 = true ∧ IndexSet.mem 0 63 = false ∧
      256 ≤ (fullTable true).points.own.length + (fullTable true).points.mirrored.length ∧
      (fullTable true).points.mirror? ⟨1, 5⟩ = none ∧
      ((fullTable true).takeItem 1 32 .update (item 0 .one [1])).points.mirror? ⟨12, 0⟩ = none ∧
      ((fullTable false).takeItem 1 32 .update (item 0 .one [1])).control.faults.tableFull = true := by decide +kernel

theorem test_witness_sequence_and_epoch :
    serving.peers.find? 12 = some peer ∧ peer.expected = some 19 ∧ (19 : Byte) ≠ 20 ∧ peer.epoch = 3 ∧
      (beaconFrom 12).epoch = 3 ∧ { beaconFrom 12 with epoch := 4 }.epoch ≠ peer.epoch := by decide

theorem test_witness_HearingReturnsAnAwayPeer :
    serving.peers.find? (beaconFrom 12).sender = some peer ∧ peer.state = .recovering ∧
      (serving.mapPeer 12 (fun r => { r with state := .lost })).peers.find? 12 = some { peer with state := .lost } ∧
      ((serving.mapPeer 12 (fun r => { r with state := .silent })).hear (beaconFrom 12)).notices.queue =
        [⟨.peer .back 12, 0⟩] := by decide

theorem test_witness_AsksOfOthersMergeAndMeet :
    serving.peers.find? 12 = some peer ∧ peer.askDue = true ∧ serving.peers.asking = none ∧
      ((serving.mergeAsk 12 8).peers.find? 12).map PeerRecord.attempts = some 1 ∧
      ((serving.mergeAsk 12 1).peers.find? 12).map PeerRecord.covered = some 1 ∧
      serving.metStep 12 0x28 = serving ∧ serving.peers.find? 13 = none := by decide

/-- An ASK of station 12 for indexes 3 and 4. -/
def askTo (target : Station) : Frame := ⟨false, 12, 3, .ask target false 7 0x18⟩

theorem test_witness_AddressedAsksAndHellosAreTaken :
    serving.control.station = some 5 ∧
      ((serving.setPublication { serving.publication with published := 8 }).publicationEvent (askTo 5)).publication.replay =
        8 ∧
      serving.publicationEvent (askTo 6) = serving ∧ (beaconFrom 12).body.kind ≠ .ask ∧
      (serving.controlEvent ⟨false, 12, 3, .hello 40⟩).control.helloHold = .running (5 * 64 * 128) ∧
      serving.controlEvent (beaconFrom 12) = serving := by decide

/-- The station listens for line trouble with a count of good frames, its join timer held. -/
def troubled (count : Nat) : State :=
  serving.setControl { serving.control with
    state := .listening .lineTrouble, lineTroubleCount := count, joinTimer := .held 5 }

theorem test_witness_ThirtyTwoGoodFramesEndLineTrouble :
    (troubled 30).control.station = some 5 ∧ (troubled 30).control.joinTimer.isHeld = true ∧
      (hearingBits (troubled 31) []).frame.assembly = some ⟨[], false, .foreign⟩ ∧
      (hearingBits (troubled 31) []).control.state = .listening .lineTrouble ∧
      31 ≤ (hearingBits (troubled 31) []).control.lineTroubleCount ∧
      ((troubled 30).controlEvent (beaconFrom 12)).control.lineTroubleCount = 31 ∧
      ((troubled 31).controlEvent (beaconFrom 12)).control.state = .inService ∧
      ((troubled 31).controlEvent (beaconFrom 12)).arbiter.wants.beacon = true := by decide

/-! ### Transmission and timers -/

theorem test_witness_StartTakesTheHighestAllowedWant :
    serving.mayTransmit = true ∧ serving.arbiter.wants.raised .alarm = true ∧ (serving.contents .alarm).isSome = true ∧
      hearing.mayTransmit = false ∧ updating.mayTransmit = false ∧
      State.contents { serving with publication := Publication.reset } .alarm = none := by decide

/-- The station with only ROUTINE wanted. -/
def routineOnly : State :=
  { serving with
    arbiter := { Arbiter.reset with wants := ⟨false, false, false, true, false, false⟩ }
    peers := PeerUnit.reset }

theorem test_witness_UpdatesTakeARunOfThePublishSet :
    routineOnly.publicationWf ∧ routineOnly.control.station = some 5 ∧ routineOnly.control.state = .inService ∧
      routineOnly.control.withdrawPending = false ∧ routineOnly.line.condition = .idle ∧
      routineOnly.arbiter.inFlight = none ∧ routineOnly.arbiter.wants = ⟨false, false, false, true, false, false⟩ ∧
      routineOnly.publication.publishSet ≠ [] ∧
      (after (exec .transmitStart routineOnly)).publication.flight = some ⟨false, 0, [⟨3, .one, 0, [9]⟩]⟩ ∧
      (routineOnly.setPublication .reset).contents .routine = none ∧
      (routineOnly.setPoints ⟨[], [⟨3, .one, false, [9], none⟩], []⟩).contents .alarm = none := by
  decide

theorem test_witness_UpdatesTakeARunOfThePublishSet_alarm :
    serving.publicationWf ∧ serving.control.state = .inService ∧ serving.arbiter.inFlight = none ∧
      serving.line.condition = .idle ∧ serving.arbiter.wants.alarm = true ∧
      serving.publication.publishSet.filter (fun i => serving.points.own.any (fun e => decide (e.index = i) && e.urgent)) ≠
        [] ∧
      (after (exec .transmitStart serving)).publication.flight = some ⟨true, 0, [⟨3, .one, 0, [9]⟩]⟩ := by
  decide

/-- Point 3 is published and waits to be sent again. -/
def replaying : State :=
  (serving.setPoints (serving.points.publish [⟨3, .one, 0, [9]⟩])).setPublication
    { serving.publication with published := 8, replay := 8 }

theorem test_witness_AskAndResendCarryWhatIsDue :
    serving.control.station = some 5 ∧ peer ∈ serving.peers.records ∧ peer.askDue = true ∧
      (serving.contents .ask).map Prod.fst = some ⟨false, 5, 7, .ask 12 false 3 8⟩ ∧ routineOnly.contents .ask = none ∧
      replaying.publicationWf ∧ replaying.publication.replay ≠ 0 ∧ serving.publication.replay = 0 ∧
      (replaying.contents .resend).map Prod.fst = some ⟨false, 5, 7, .resend [⟨3, .one, 0, [9]⟩]⟩ := by decide

theorem test_witness_update_outcomes :
    updating.arbiter.inFlight = some .alarm ∧ updating.line.drive = .sending ⟨0, [], 0⟩ ∧
      updating.line.condition = .busy ∧ updating.publication.flight = some ⟨true, 0, [⟨3, .one, 0, [9]⟩]⟩ ∧
      (([⟨3, .one, 0, [9]⟩] : List Item).map Item.index).Nodup ∧ updating.control.withdrawPending = false ∧
      updating.publication.round = .opened 0 ∧
      (after (exec .completed (updating.setCondition .lowBreak))).line = ⟨.lowBreak, .idle, .none⟩ ∧
      (after (exec .completed (updating.setCondition .lowBreak))).publication.sequence = 1 ∧
      (after (exec (.lineIdle []) updating)).line = ⟨.idle, .unheard ⟨0, [], 0⟩, .none⟩ ∧
      (after (exec .completed (updating.setLine ⟨.idle, .unheard ⟨0, [], 0⟩, .none⟩))).publication.sequence = 1 ∧
      (after (exec .completed ((updating.setLine ⟨.busy, .unheard ⟨0, [], 0⟩, .none⟩).setAssembly
        (some ⟨[true], false, .foreign⟩)))).frame.assembly = some ⟨[true], false, .foreign⟩ ∧
      (after (exec (.bitError []) updating)).line.drive = .breaking ∧ updating.arbiter.failures < 7 := by decide

/-- LOST at the last bit of the arbitration field hands the sampled 0 on, and the frame is another station's. -/
theorem test_lost_leaves_the_frame :
    (after (exec .lost (updating.setAssembly (some ⟨List.replicate 10 false, false, .driven⟩)))).frame.assembly =
        some ⟨List.replicate 11 false, false, .foreign⟩ ∧
      after (exec .lost (updating.setAssembly (some ⟨List.replicate 11 false, true, .driven⟩))) =
        updating.setAssembly (some ⟨List.replicate 11 false, true, .driven⟩) := by decide

theorem test_witness_CompletedHelloOpensTheJoinWindow :
    (flying serving .hello).arbiter.inFlight = some .hello ∧ (flying serving .hello).line.condition = .busy ∧
      (flying serving .hello).control.state = .inService ∧
      (flying (inState serving .joining) .hello).control.state = .joining := by decide

theorem test_witness_OutcomesOfAskBeaconAndResend :
    ((flying serving .ask).setPeers ⟨[peer], [], some ⟨12, 8, true⟩⟩).arbiter.inFlight = some .ask ∧
      serving.control.state.isListening = false ∧ (flying serving .beacon).arbiter.inFlight = some .beacon ∧
      (flying serving .resend).arbiter.inFlight = some .resend ∧ (flying serving .resend).line.condition = .busy ∧
      (after (exec .lost ((flying serving .ask).setPeers ⟨[peer], [], some ⟨12, 8, true⟩⟩))).peers.asking = none ∧
      (after (exec .failed (after (exec (.bitError []) (flying serving .hello))))).arbiter.failures = 1 := by
  decide

/-- The eighth failure and a pending withdraw, of an UPDATE too. -/
theorem test_witness_BitErrorFailsAndTheEighthListens :
    (after (exec (.bitError [.low]) updating)).line.drive = .breaking ∧
      (after (exec (.bitError []) updating)).arbiter.inFlight = some .alarm ∧
      (after (exec .failed ((updating.setArbiter { updating.arbiter with failures := 7 }).setLine
        ⟨.busy, .breaking, .none⟩))).control.state = .listening .lineTrouble ∧
      (after (exec .failed ((updating.setArbiter { updating.arbiter with failures := 6 }).setLine
        ⟨.busy, .breaking, .none⟩))).control.state = .inService ∧
      (after (exec .lost (updating.setControl { updating.control with withdrawPending := true }))).control.state =
        .listening .command ∧
      (after (exec .completed (updating.setControl { updating.control with withdrawPending := true }))).control.state =
        .listening .command := by decide

theorem test_witness_timers :
    (serving.setPublication { serving.publication with publishTimer := .running 0, beaconTimer := .running 0 }
        ).publication.publishTimer = .running 0 ∧
      serving.publication.beaconTimer = .stopped ∧ serving.publication.publishTimer = .stopped ∧
      serving.control.helloHold = .stopped ∧
      (serving.setControl { serving.control with helloHold := .running 0 }).control.helloHold = .running 0 := by decide

/-- An expiry acts with no time left alone: at 0, and not at 1. -/
theorem test_witness_SilenceMakesSilentThenLost :
    serving.peers.find? 12 = some peer ∧ peer.silence = .running .silence 10 ∧ peer.state = .recovering ∧
      (serving.mapPeer 12 (fun r => { r with silence := .running .silence 0 })).peers.find? 12 =
        some { peer with silence := .running .silence 0 } ∧
      (serving.mapPeer 12 (fun r => { r with state := .silent, silence := .running .loss 0 })).peers.find? 12 =
        some { peer with state := .silent, silence := .running .loss 0 } ∧
      after (exec (.silenceTimerExpiry 12) (serving.mapPeer 12 (fun r => { r with silence := .running .silence 1 }))) =
        serving.mapPeer 12 (fun r => { r with silence := .running .silence 1 }) ∧
      serving.peers.find? 13 = none := by decide

theorem test_witness_RecallWaitAsksAgainThenFails :
    ((serving.mapPeer 12 (fun r => { r with recallWait := .running 0, attempts := 2 })).peers.find? 12).map
        (fun r => (r.recallWait, r.attempts)) = some (.running 0, 2) ∧
      ((serving.mapPeer 12 (fun r => { r with recallWait := .running 0, attempts := 3 })).peers.find? 12).map
        (fun r => (r.recallWait, r.attempts)) = some (.running 0, 3) ∧
      serving.peers.find? 12 = some peer ∧ peer.recallWait ≠ .running 0 := by decide

theorem test_witness_JoinExpiryRecallsWhatIsMissing :
    ((inState serving .joining).setControl { serving.control with joinTimer := .running 0 }).control.joinTimer =
        .running 0 ∧
      tableSorted (fun r : PeerRecord => r.station.toNat) serving.peers.records ∧ serving.control.joinTimer ≠ .running 0 ∧
      serving.joinNeed peer = 0x9 ∧ peer.joins = true := by decide

theorem test_clock_wraps_and_saturates :
    (after (exec .millisecondClockAdvance (serving.setControl { serving.control with clock := 65534 }))
        ).points.mirrored.map MirrorEntry.ageSaturated = [true] ∧
      (after (exec .millisecondClockAdvance (serving.setControl { serving.control with clock := 65535 }))
        ).control.clock = 0 := by decide

end Sys2Proof.Tests
end

section
/-! PROOFS. Mirrored entries: what holds of the mirrored entries and of the records they belong to, in the one form that
every event of the station keeps. -/

namespace Sys2Proof.Machine

open Sys2Proof

/-! ### Tables: lengths -/

section Tables

variable {α : Type} {key : α → Nat}

theorem tableInsert_length_le (x : α) (l : List α) : (tableInsert key x l).length ≤ l.length + 1 := by
  induction l with
  | nil => simp [tableInsert]
  | cons y ys ih =>
    unfold tableInsert
    split
    · simp
    · split
      · simp
      · simpa using ih

/-- A record put in the place of one with its key makes the table no longer. -/
theorem tableInsert_length_of_mem {x y : α} {l : List α} (h : tableSorted key l) (hy : y ∈ l) (hk : key y = key x) :
    (tableInsert key x l).length = l.length := by
  induction l with
  | nil => cases hy
  | cons z zs ih =>
    have ⟨hz, hzs⟩ := List.pairwise_cons.1 h
    unfold tableInsert
    rcases List.mem_cons.1 hy with rfl | hy
    · rw [if_neg (by omega), if_pos hk.symm]
      rfl
    · have hlt := hz y hy
      rw [if_neg (by omega), if_neg (by omega), List.length_cons, ih hzs hy, List.length_cons]

theorem tableErase_length_lt {x : α} {l : List α} (hx : x ∈ l) : (tableErase key (key x) l).length < l.length :=
  List.length_filter_lt_length_iff_exists.2 ⟨x, hx, by simp⟩

/-- A sorted table whose keys stay below a bound has at most that many records. -/
theorem tableSorted_length_le {l : List α} {bound : Nat} (h : tableSorted key l) (hb : ∀ x ∈ l, key x < bound) :
    l.length ≤ bound := by
  have hnodup : (l.map key).Nodup := List.pairwise_map.2 (h.imp Nat.ne_of_lt)
  have hsub : (l.map key).toFinset ⊆ Finset.range bound := by
    intro k hk
    obtain ⟨x, hx, rfl⟩ := List.mem_map.1 (List.mem_toFinset.1 hk)
    exact Finset.mem_range.2 (hb x hx)
  have hcard := Finset.card_le_card hsub
  rwa [List.toFinset_card_of_nodup hnodup, List.length_map, Finset.card_range] at hcard

/-- A table whose records change but keep their keys. -/
theorem tableFind_map {g : α → α} (hg : ∀ a, key (g a) = key a) (k : Nat) (l : List α) :
    tableFind key k (l.map g) = (tableFind key k l).map g := by
  have hpred : (fun y => key y == k) ∘ g = fun y => key y == k := by
    funext y
    simp [hg]
  rw [tableFind, List.find?_map, hpred, tableFind]

end Tables

/-! ### Changes of records and entries -/

/-- A change of records that keeps station and interest, and after which no record is SILENT or LOST that was not. -/
structure PeerRecord.KeepsPresence (g : PeerRecord → PeerRecord) : Prop where
  station : ∀ r, (g r).station = r.station
  interest : ∀ r, (g r).interest = r.interest
  away : ∀ r, (g r).isAway = true → r.isAway = true

/-- A change of records that leaves station, interest and state alone. -/
theorem PeerRecord.KeepsPresence.of_state {g : PeerRecord → PeerRecord} (hs : ∀ r, (g r).station = r.station)
    (hi : ∀ r, (g r).interest = r.interest) (hst : ∀ r, (g r).state = r.state) : KeepsPresence g :=
  ⟨hs, hi, fun r h => by simpa only [PeerRecord.isAway, hst] using h⟩

/-- A change of records into LIVE or RECOVERING ones. -/
theorem PeerRecord.KeepsPresence.of_present {g : PeerRecord → PeerRecord} (hs : ∀ r, (g r).station = r.station)
    (hi : ∀ r, (g r).interest = r.interest) (hp : ∀ r, (g r).isAway = false) : KeepsPresence g :=
  ⟨hs, hi, fun r h => by rw [hp] at h; cases h⟩

/-- A change of the records of one station. -/
theorem PeerRecord.KeepsPresence.atStation {g : PeerRecord → PeerRecord} (h : KeepsPresence g) (n : Station) :
    KeepsPresence (fun r => if r.station = n then g r else r) where
  station r := by
    split
    · exact h.station r
    · rfl
  interest r := by
    split
    · exact h.interest r
    · rfl
  away r ha := by
    split at ha
    · exact h.away r ha
    · exact ha

/-- A change of entries that keeps key, size and value, and leaves STALE entries STALE. -/
structure MirrorEntry.KeepsContents (h : MirrorEntry → MirrorEntry) : Prop where
  key : ∀ e, (h e).key = e.key
  size : ∀ e, (h e).size = e.size
  value : ∀ e, (h e).value = e.value
  stale : ∀ e, e.state = .stale → (h e).state = .stale

theorem MirrorEntry.keepsContents_toStale (c : MirrorEntry → Prop) [DecidablePred c] :
    KeepsContents (fun e => if c e then { e with state := .stale } else e) where
  key e := by split <;> rfl
  size e := by split <;> rfl
  value e := by split <;> rfl
  stale e h := by split <;> simp [h]

theorem MirrorEntry.keepsContents_toSuspect (n : Station) :
    KeepsContents (fun e => if e.key.station = n ∧ e.state = .valid then { e with state := .suspect } else e) where
  key e := by split <;> rfl
  size e := by split <;> rfl
  value e := by split <;> rfl
  stale e h := by simp [h]

theorem MirrorEntry.keepsContents_watchAge (clock : Word16) : KeepsContents (MirrorEntry.watchAge clock) where
  key e := by unfold MirrorEntry.watchAge; split <;> rfl
  size e := by unfold MirrorEntry.watchAge; split <;> rfl
  value e := by unfold MirrorEntry.watchAge; split <;> rfl
  stale e h := by unfold MirrorEntry.watchAge; split <;> simp [h]

/-- The record of a station after a change of all records. -/
theorem PeerUnit.find?_map {u v : PeerUnit} {g : PeerRecord → PeerRecord} (h : v.records = u.records.map g)
    (hg : ∀ r, (g r).station = r.station) (n : Station) : v.find? n = (u.find? n).map g := by
  unfold PeerUnit.find?
  rw [h, tableFind_map (fun r => by rw [hg])]

theorem PeerUnit.find?_congr {u v : PeerUnit} (h : v.records = u.records) (n : Station) : v.find? n = u.find? n := by
  unfold PeerUnit.find?
  rw [h]

/-! ### The mirrored entries and their owners -/

/-- An entry belongs to the record that its station's frames find: that record's interest names it, and it is STALE
while the record is SILENT or LOST. -/
def MirrorEntry.OwnedIn (u : PeerUnit) (e : MirrorEntry) : Prop :=
  ∃ r, u.find? e.key.station = some r ∧ IndexSet.mem r.interest e.key.index = true ∧ (r.isAway = true → e.state = .stale)

/-- The invariant of the mirrored entries, with the owner of each named by the lookup of records: the lookup makes the
owner unique, so that an event at one record reaches exactly the entries of that record's station. -/
structure State.MirrorsHeld (s : State) : Prop where
  count : s.points.own.length + s.points.mirrored.length ≤ 256
  sorted : tableSorted (fun e : MirrorEntry => e.key.rank) s.points.mirrored
  fits : ∀ e ∈ s.points.mirrored, e.value.length = e.size.bytes
  owned : ∀ e ∈ s.points.mirrored, e.OwnedIn s.peers

theorem State.MirrorsHeld.mirrorsWf {s : State} (h : s.MirrorsHeld) : s.mirrorsWf := by
  refine ⟨h.count, h.sorted, fun e he => ⟨h.fits e he, ?_⟩⟩
  obtain ⟨r, hr, hmem, haway⟩ := h.owned e he
  exact ⟨r, (tableFind_mem hr).1, PeerUnit.find?_station hr, hmem, haway⟩

/-- In a sorted Peer Table the owner of an entry is the record that the lookup finds. -/
theorem State.mirrorsHeld_of_mirrorsWf {s : State} (hr : tableSorted (fun r : PeerRecord => r.station.toNat) s.peers.records)
    (h : s.mirrorsWf) : s.MirrorsHeld := by
  obtain ⟨hcount, hsorted, hentries⟩ := h
  refine ⟨hcount, hsorted, fun e he => (hentries e he).1, fun e he => ?_⟩
  obtain ⟨r, hmem, hstation, hinterest, haway⟩ := (hentries e he).2
  refine ⟨r, ?_, hinterest, haway⟩
  rw [← hstation]
  exact tableFind_of_mem hr hmem

namespace State.MirrorsHeld

variable {s t : State}

/-! ### What keeps the invariant: no change, a change of records, a change of entries -/

/-- The invariant is about the number of own entries, the mirrored entries and the records alone. -/
theorem congr (h : s.MirrorsHeld) (hown : t.points.own.length = s.points.own.length)
    (hmirrored : t.points.mirrored = s.points.mirrored) (hrecords : t.peers.records = s.peers.records) :
    t.MirrorsHeld := by
  refine ⟨?_, ?_, ?_, ?_⟩
  · rw [hown, hmirrored]; exact h.count
  · rw [hmirrored]; exact h.sorted
  · rw [hmirrored]; exact h.fits
  · intro e he
    rw [hmirrored] at he
    obtain ⟨r, hr, hrest⟩ := h.owned e he
    exact ⟨r, by rw [PeerUnit.find?_congr hrecords, hr], hrest⟩

/-- A change of all records. -/
theorem mapRecords (h : s.MirrorsHeld) {g : PeerRecord → PeerRecord} (hg : PeerRecord.KeepsPresence g)
    (hpoints : t.points = s.points) (hrecords : t.peers.records = s.peers.records.map g) : t.MirrorsHeld := by
  refine ⟨?_, ?_, ?_, ?_⟩
  · rw [hpoints]; exact h.count
  · rw [hpoints]; exact h.sorted
  · rw [hpoints]; exact h.fits
  · intro e he
    rw [hpoints] at he
    obtain ⟨r, hr, hmem, haway⟩ := h.owned e he
    refine ⟨g r, ?_, ?_, fun ha => haway (hg.away r ha)⟩
    · rw [PeerUnit.find?_map hrecords hg.station, hr]; rfl
    · rw [hg.interest]; exact hmem

/-- A change of one station's record that may make it SILENT or LOST where that station's entries are STALE. -/
theorem mapPeer_of_stale (h : s.MirrorsHeld) {n : Station} {f : PeerRecord → PeerRecord}
    (hstation : ∀ r, (f r).station = r.station) (hinterest : ∀ r, (f r).interest = r.interest)
    (hstale : ∀ e ∈ s.points.mirrored, e.key.station = n → e.state = .stale) : (s.mapPeer n f).MirrorsHeld := by
  refine ⟨h.count, h.sorted, h.fits, fun e he => ?_⟩
  obtain ⟨r, hr, hmem, haway⟩ := h.owned e he
  by_cases hn : e.key.station = n
  · refine ⟨f r, ?_, ?_, fun _ => hstale e he hn⟩
    · rw [hn] at hr ⊢
      exact State.find?_mapPeer_self hstation hr
    · rw [hinterest]; exact hmem
  · exact ⟨r, by rw [State.find?_mapPeer_other s hstation hn, hr], hmem, haway⟩

theorem mapPeer (h : s.MirrorsHeld) {n : Station} {f : PeerRecord → PeerRecord} (hf : PeerRecord.KeepsPresence f) :
    (s.mapPeer n f).MirrorsHeld := h.mapRecords (hf.atStation n) rfl rfl

/-- A change of the entries. -/
theorem mapMirrored (h : s.MirrorsHeld) {g : MirrorEntry → MirrorEntry} (hg : MirrorEntry.KeepsContents g) :
    (s.setPoints { s.points with mirrored := s.points.mirrored.map g }).MirrorsHeld := by
  refine ⟨?_, ?_, ?_, ?_⟩
  · simpa using h.count
  · exact map_sorted (fun e => by rw [hg.key]) h.sorted
  · intro e he
    obtain ⟨x, hx, rfl⟩ := List.mem_map.1 he
    rw [hg.value, hg.size]
    exact h.fits x hx
  · intro e he
    obtain ⟨x, hx, rfl⟩ := List.mem_map.1 he
    obtain ⟨r, hr, hmem, haway⟩ := h.owned x hx
    refine ⟨r, ?_, ?_, fun ha => hg.stale x (haway ha)⟩
    · rw [hg.key]; exact hr
    · rw [hg.key]; exact hmem

theorem staleThese (h : s.MirrorsHeld) (n : Station) (set : IndexSet) :
    (s.setPoints (s.points.staleThese n set)).MirrorsHeld :=
  h.mapMirrored (MirrorEntry.keepsContents_toStale (fun e => e.key.station = n ∧ IndexSet.mem set e.key.index = true))

theorem staleAll (h : s.MirrorsHeld) (n : Station) : (s.setPoints (s.points.staleAll n)).MirrorsHeld :=
  h.mapMirrored (MirrorEntry.keepsContents_toStale (fun e => e.key.station = n))

theorem suspectAll (h : s.MirrorsHeld) (n : Station) : (s.setPoints (s.points.suspectAll n)).MirrorsHeld :=
  h.mapMirrored (MirrorEntry.keepsContents_toSuspect n)

/-- Without mirrored entries there is nothing to hold but the count. -/
theorem of_nil (hown : t.points.own.length ≤ 256) (hmirrored : t.points.mirrored = []) : t.MirrorsHeld := by
  refine ⟨?_, ?_, ?_, ?_⟩
  · simpa [hmirrored] using hown
  · simp [hmirrored]
  · simp [hmirrored]
  · simp [hmirrored]

/-! ### One entry more or less -/

/-- An entry created where there is room, or put in the place of the one with its key. -/
theorem putMirror (h : s.MirrorsHeld) {e : MirrorEntry} (hfits : e.value.length = e.size.bytes)
    (howned : e.OwnedIn s.peers)
    (hroom : s.points.own.length + s.points.mirrored.length < 256 ∨ ∃ y ∈ s.points.mirrored, y.key = e.key) :
    (s.putMirror e).MirrorsHeld := by
  refine ⟨?_, tableInsert_sorted h.sorted, ?_, ?_⟩
  · have hcount := h.count
    rw [State.putMirror_own, State.putMirror_mirrored]
    rcases hroom with hroom | ⟨y, hy, hkey⟩
    · have hle := tableInsert_length_le (key := fun e : MirrorEntry => e.key.rank) e s.points.mirrored
      omega
    · rw [tableInsert_length_of_mem h.sorted hy (congrArg Key.rank hkey)]
      exact hcount
  · intro x hx
    rcases mem_tableInsert hx with rfl | hx
    · exact hfits
    · exact h.fits x hx
  · intro x hx
    rcases mem_tableInsert hx with rfl | hx
    · exact howned
    · exact h.owned x hx

theorem freeMirror (h : s.MirrorsHeld) (k : Key) : (s.setPoints (s.points.freeMirror k)).MirrorsHeld := by
  refine ⟨?_, tableErase_sorted h.sorted, ?_, ?_⟩
  · have hle : (s.points.freeMirror k).mirrored.length ≤ s.points.mirrored.length := List.length_filter_le _ _
    have hcount := h.count
    show s.points.own.length + (s.points.freeMirror k).mirrored.length ≤ 256
    omega
  · exact fun e he => h.fits e (mem_tableErase.1 he).1
  · exact fun e he => h.owned e (mem_tableErase.1 he).1

end State.MirrorsHeld

end Sys2Proof.Machine
end

section
/-! PROOFS. The peer unit and the mirrored entries: items at the point table, and the classification of a good frame, keep
every mirrored entry with its owner. -/

namespace Sys2Proof.Machine

open Sys2Proof

/-! ### The items of a received frame -/

/-- Items as they are parsed have values of their size (R117, R123). -/
theorem parseItems_values {n : Nat} {bytes : List Byte} {items : List Item} (h : parseItems n bytes = some items) :
    ∀ i ∈ items, i.value.length = i.size.bytes := by
  induction n generalizing bytes items with
  | zero =>
    cases bytes with
    | nil => cases h; simp
    | cons head rest => cases h
  | succ n ih =>
    match bytes with
    | [] => cases h; simp
    | [head] => cases h
    | head :: version :: rest =>
      rw [parseItems] at h
      split at h
      · cases h
      next hlong =>
        split at h
        · cases h
        next tail htail =>
          cases h
          intro i hi
          rcases List.mem_cons.1 hi with rfl | hi
          · exact List.length_take_of_le (Nat.le_of_not_lt hlong)
          · exact ih htail i hi

theorem itemsOf_values {bytes : List Byte} {items : List Item} (h : itemsOf bytes = some items) :
    ∀ i ∈ items, i.value.length = i.size.bytes := by
  unfold itemsOf at h
  split at h
  · cases h
  next parsed hp =>
    split at h
    · cases h
    · split at h
      · cases h
        exact parseItems_values hp
      · cases h

theorem parseBody_values {kind : FrameKind} {bytes : List Byte} {body : FrameBody}
    (h : parseBody kind bytes = some body) : ∀ i ∈ body.items, i.value.length = i.size.bytes := by
  unfold parseBody at h
  split at h
  · obtain ⟨items, hi, rfl⟩ := Option.map_eq_some_iff.1 h
    exact itemsOf_values hi
  · cases h
  · split at h
    · cases h
      simp [FrameBody.items]
    · cases h
  · cases h
  · split at h
    · obtain ⟨target, _, rfl⟩ := Option.map_eq_some_iff.1 h
      simp [FrameBody.items]
    · cases h
  · cases h
  · split at h
    · cases h
      simp [FrameBody.items]
    · cases h
  · cases h
  · obtain ⟨items, hi, rfl⟩ := Option.map_eq_some_iff.1 h
    exact itemsOf_values hi

/-- The items of a frame that has passed its validation have values of their size. -/
theorem validate_values {w : WireFrame} {f : Frame} (h : validate w = some f) :
    ∀ i ∈ f.body.items, i.value.length = i.size.bytes := by
  unfold validate at h
  split at h
  · split at h
    · obtain ⟨body, hb, rfl⟩ := Option.map_eq_some_iff.1 h
      exact parseBody_values hb
    · cases h
  · cases h

/-! ### One item at the point table -/

theorem State.createEntry_peers (s : State) (k : Key) (i : Item) : (s.createEntry k i).peers = s.peers := by
  unfold State.createEntry
  split
  · rfl
  · split <;> rfl

theorem State.applyItem_peers (s : State) (k : Key) (i : Item) (clash : Bool) :
    (s.applyItem k i clash).peers = s.peers := by cases clash <;> rfl

/-- The point table takes an item without touching the Peer Table. -/
theorem State.takeItem_peers (s : State) (n : Station) (interest : IndexSet) (c : Carrier) (i : Item) :
    (s.takeItem n interest c i).peers = s.peers := by
  unfold State.takeItem
  dsimp only
  split
  · split
    · exact State.createEntry_peers _ _ _
    · rfl
  · split
    · rfl
    · rfl
    · exact State.applyItem_peers _ _ _ _

theorem PointTable.mirror?_mem {t : PointTable} {k : Key} {e : MirrorEntry} (h : t.mirror? k = some e) :
    e ∈ t.mirrored ∧ e.key = k :=
  ⟨(tableFind_mem h).1, Key.rank_injective (tableFind_mem h).2⟩

/-- The sender's record is there and neither SILENT nor LOST. -/
structure State.TakesFrom (s : State) (n : Station) : Prop where
  held : s.MirrorsHeld
  present : ∀ r, s.peers.find? n = some r → r.isAway = false

namespace State.TakesFrom

variable {s t : State} {n : Station}

theorem congr (h : s.TakesFrom n) (hpoints : t.points = s.points) (hrecords : t.peers.records = s.peers.records) :
    t.TakesFrom n :=
  ⟨h.held.congr (by rw [hpoints]) (by rw [hpoints]) hrecords,
    fun r hr => h.present r (by rw [← PeerUnit.find?_congr hrecords]; exact hr)⟩

theorem mapPeer (h : s.TakesFrom n) {f : PeerRecord → PeerRecord} (hf : PeerRecord.KeepsPresence f) :
    (s.mapPeer n f).TakesFrom n := by
  refine ⟨h.held.mapPeer hf, fun r hr => ?_⟩
  rw [PeerUnit.find?_map rfl (hf.atStation n).station] at hr
  obtain ⟨x, hx, rfl⟩ := Option.map_eq_some_iff.1 hr
  exact Bool.eq_false_iff.2 fun ha => Bool.eq_false_iff.1 (h.present x hx) ((hf.atStation n).away x ha)

/-- An entry of the sender at an index of interest has its owner in the sender's record. -/
theorem owned (h : s.TakesFrom n) {e : MirrorEntry} {r : PeerRecord} (hr : s.peers.find? n = some r)
    (hn : e.key.station = n) (hi : IndexSet.mem r.interest e.key.index = true) : e.OwnedIn s.peers :=
  ⟨r, by rw [hn]; exact hr, hi, fun ha => by rw [h.present r hr] at ha; cases ha⟩

/-- An entry put in the place of one of the sender's (R15). -/
theorem replaced (h : s.TakesFrom n) {e x : MirrorEntry} (he : e ∈ s.points.mirrored) (hn : e.key.station = n)
    (hx : x.key = e.key) (hfits : x.value.length = x.size.bytes) : (s.putMirror x).MirrorsHeld := by
  obtain ⟨r, hr, hmem, _⟩ := h.held.owned e he
  refine h.held.putMirror hfits (h.owned (r := r) (by rw [← hn]; exact hr) (by rw [hx]; exact hn) ?_)
    (.inr ⟨e, he, hx.symm⟩)
  rw [hx]
  exact hmem

theorem createEntry (h : s.TakesFrom n) {r : PeerRecord} {i : Item} (hr : s.peers.find? n = some r)
    (hi : IndexSet.mem r.interest i.index = true) (hv : i.value.length = i.size.bytes) :
    (s.createEntry ⟨n, i.index⟩ i).MirrorsHeld := by
  unfold State.createEntry
  split
  next hroom =>
    have hput := h.held.putMirror (e := appliedEntry ⟨n, i.index⟩ i s.control.clock) hv (h.owned hr rfl hi) (.inl hroom)
    exact hput.congr rfl rfl rfl
  · split
    next e he =>
      have hmem := List.mem_of_find?_eq_some he
      have hlt : (s.points.freeMirror e.key).mirrored.length < s.points.mirrored.length :=
        tableErase_length_lt (key := fun e : MirrorEntry => e.key.rank) hmem
      have hcount := h.held.count
      have hput := (h.held.freeMirror e.key).putMirror (e := appliedEntry ⟨n, i.index⟩ i s.control.clock) hv
        (h.owned hr rfl hi) (.inl (by
          show s.points.own.length + (s.points.freeMirror e.key).mirrored.length < 256
          omega))
      exact hput.congr rfl rfl rfl
    next => exact h.held.congr rfl rfl rfl

/-- The point table takes an item of the sender (R10 to R20). -/
theorem takeItem (h : s.TakesFrom n) {interest : IndexSet} (c : Carrier) {i : Item}
    (hinterest : ∀ j, IndexSet.mem interest j = true →
      ∃ r, s.peers.find? n = some r ∧ IndexSet.mem r.interest j = true)
    (hv : i.value.length = i.size.bytes) : (s.takeItem n interest c i).MirrorsHeld := by
  unfold State.takeItem
  dsimp only
  split
  · split
    next hi =>
      obtain ⟨r, hr, hmem⟩ := hinterest i.index hi
      exact h.createEntry hr hmem hv
    · exact h.held
  next e he =>
    obtain ⟨hmem, hkey⟩ := PointTable.mirror?_mem he
    have hn : e.key.station = n := by rw [hkey]
    split
    · exact h.held
    · exact (h.replaced (x := e.refreshed s.control.clock) hmem hn rfl (h.held.fits e hmem)).congr rfl rfl rfl
    next clash _ =>
      have hput := h.replaced (x := appliedEntry ⟨n, i.index⟩ i s.control.clock) hmem hn hkey.symm hv
      cases clash
      · exact hput.congr rfl rfl rfl
      · exact hput.congr rfl rfl rfl

/-- One item handed over, and its index taken from the need (R63). -/
theorem handOver (h : s.TakesFrom n) (c : Carrier) {i : Item} (hv : i.value.length = i.size.bytes) :
    (s.handOver n c i).TakesFrom n := by
  have hinterest : ∀ j, IndexSet.mem (((s.peers.find? n).map PeerRecord.interest).getD 0) j = true →
      ∃ r, s.peers.find? n = some r ∧ IndexSet.mem r.interest j = true := by
    intro j hj
    cases hr : s.peers.find? n with
    | none => rw [hr] at hj; exact absurd hj (by simp)
    | some r => exact ⟨r, rfl, by rw [hr] at hj; exact hj⟩
  have htaken : (s.takeItem n (((s.peers.find? n).map PeerRecord.interest).getD 0) c i).TakesFrom n :=
    ⟨h.takeItem c hinterest hv, fun r hr => h.present r (by rw [State.takeItem_peers] at hr; exact hr)⟩
  exact htaken.mapPeer (.of_state (fun _ => rfl) (fun _ => rfl) (fun _ => rfl))

theorem foldl_handOver {items : List Item} (h : s.TakesFrom n) (c : Carrier)
    (hv : ∀ i ∈ items, i.value.length = i.size.bytes) :
    (items.foldl (fun s i => s.handOver n c i) s).TakesFrom n := by
  induction items generalizing s with
  | nil => exact h
  | cons i l ih =>
    exact ih (h.handOver c (hv i List.mem_cons_self)) (fun j hj => hv j (List.mem_cons_of_mem _ hj))

/-! ### The steps of a classification -/

theorem itemsStep {f : Frame} (h : s.TakesFrom f.sender) (hv : ∀ i ∈ f.body.items, i.value.length = i.size.bytes) :
    (s.itemsStep f).TakesFrom f.sender := h.foldl_handOver f.body.carrier hv

theorem setMirrored (h : s.TakesFrom n) {m : List MirrorEntry}
    (hm : (s.setPoints { s.points with mirrored := m }).MirrorsHeld) :
    (s.setPoints { s.points with mirrored := m }).TakesFrom n := ⟨hm, h.present⟩

end State.TakesFrom

theorem PeerRecord.keepsPresence_gapTaken (next : Byte) : PeerRecord.KeepsPresence (fun r => r.gapTaken next) where
  station _ := rfl
  interest _ := rfl
  away r h := by
    simp only [PeerRecord.gapTaken, PeerRecord.isAway] at h
    split at h
    · exact h
    · simp at h

theorem State.TakesFrom.sequenceStep {s : State} {f : Frame} (h : s.TakesFrom f.sender) :
    (s.sequenceStep f).TakesFrom f.sender := by
  have hexpect : ∀ next : Byte, (s.mapPeer f.sender (fun r => { r with expected := some next })).TakesFrom f.sender :=
    fun _ => h.mapPeer (.of_state (fun _ => rfl) (fun _ => rfl) (fun _ => rfl))
  have hgap : ∀ next : Byte, (s.takeGap f.sender next).TakesFrom f.sender := by
    intro next
    have hmarked := (h.setMirrored (h.held.suspectAll f.sender)).mapPeer (PeerRecord.keepsPresence_gapTaken next)
    exact hmarked.congr rfl rfl
  have hcheck : ∀ carried next : Byte, (s.checkSequence f.sender carried next).TakesFrom f.sender := by
    intro carried next
    unfold State.checkSequence
    split
    · exact hexpect next
    · split
      · exact hexpect next
      · exact hgap next
  unfold State.sequenceStep
  split
  · exact hcheck _ _
  · exact hcheck _ _
  all_goals exact h

theorem State.TakesFrom.contentsStep {s : State} {f : Frame} (h : s.TakesFrom f.sender) :
    (s.contentsStep f).TakesFrom f.sender := by
  unfold State.contentsStep
  split
  · unfold State.takeBeacon
    split
    · exact h
    · exact (h.setMirrored (h.held.staleThese f.sender _)).mapPeer
        (.of_state (fun _ => rfl) (fun _ => rfl) (fun _ => rfl))
  · exact h.mapPeer (.of_state (fun _ => rfl) (fun _ => rfl) (fun _ => rfl))
  all_goals exact h

/-- The record of a sender that has been heard is neither SILENT nor LOST (R59). -/
theorem PeerRecord.heard_present (r : PeerRecord) (f : Frame) (t : Timing) :
    ((if r.isAway then r.returned else r).heard f t).isAway = false := by
  cases ha : r.isAway with
  | false => exact ha
  | true =>
    simp only [if_true, PeerRecord.heard, PeerRecord.isAway, PeerRecord.returned]
    split <;> rfl

theorem PeerRecord.keepsPresence_heard (f : Frame) (t : Timing) :
    PeerRecord.KeepsPresence (fun r => (if r.isAway then r.returned else r).heard f t) :=
  .of_present (fun r => by split <;> rfl) (fun r => by split <;> rfl) (fun r => r.heard_present f t)

/-- Once it has been heard, the sender's record takes the rest of the frame as a present one. -/
theorem State.MirrorsHeld.hear {s : State} (h : s.MirrorsHeld) (f : Frame) : (s.hear f).TakesFrom f.sender := by
  have hheard : (s.mapPeer f.sender (fun r =>
      (if r.isAway then r.returned else r).heard f s.control.timing)).TakesFrom f.sender := by
    refine ⟨h.mapPeer (PeerRecord.keepsPresence_heard f _), fun r hr => ?_⟩
    have hmem := (tableFind_mem hr).1
    have hstation := PeerUnit.find?_station hr
    obtain ⟨x, _, rfl⟩ := List.mem_map.1 hmem
    by_cases hx : x.station = f.sender
    · rw [if_pos hx]
      exact x.heard_present f _
    · rw [if_neg hx] at hstation
      exact absurd hstation hx
  unfold State.hear
  dsimp only
  split
  · exact hheard.congr rfl rfl
  · exact hheard.congr rfl rfl

theorem PeerRecord.keepsPresence_freshStart (hello : Bool) (g : PeerRecord → PeerRecord) (hs : ∀ r, (g r).station = r.station)
    (hi : ∀ r, (g r).interest = r.interest) : PeerRecord.KeepsPresence (fun r => (g r).freshStart hello) := by
  refine .of_present (fun r => ?_) (fun r => ?_) (fun r => ?_)
  · unfold PeerRecord.freshStart
    rw [← hs r]
    split
    · rfl
    · split <;> rfl
  · rw [← hi r]
    unfold PeerRecord.freshStart
    split
    · rfl
    · split <;> rfl
  · unfold PeerRecord.freshStart
    split
    · rfl
    · split <;> rfl

theorem State.find?_reclaimRecord_none {s : State} {n m : Station} (h : s.peers.find? m = none) :
    (s.reclaimRecord n).peers.find? m = none :=
  tableFind_none.2 fun r hr => tableFind_none.1 h r (mem_tableErase.1 hr).1

theorem State.keepsPresence_joinRecord (s : State) :
    PeerRecord.KeepsPresence s.joinRecord where
  station r := by unfold State.joinRecord; split <;> rfl
  interest r := by unfold State.joinRecord; split <;> rfl
  away r h := by
    unfold State.joinRecord at h
    split at h
    · cases h
    · exact h

namespace State.MirrorsHeld

variable {s t : State}

theorem recoveryComplete (h : s.MirrorsHeld) (n : Station) : (s.recoveryComplete n).MirrorsHeld := by
  have hlive := h.mapPeer (n := n) (f := fun r => { r.clearRecall with state := .live, beaconWanted := false })
    (.of_present (fun _ => rfl) (fun _ => rfl) (fun _ => rfl))
  exact hlive.congr rfl rfl rfl

theorem recoveryStep (h : s.MirrorsHeld) (n : Station) : (s.recoveryStep n).MirrorsHeld := by
  unfold State.recoveryStep
  split
  · split
    · exact h.recoveryComplete n
    · exact h
  · exact h

theorem testMet (h : s.MirrorsHeld) (n : Station) : (s.testMet n).MirrorsHeld := by
  unfold State.testMet
  split
  · exact h
  · split
    · exact h.mapPeer (.of_state (fun _ => rfl) (fun _ => rfl) (fun _ => rfl))
    · exact h

/-- Steps 4 to 7 of a classification. -/
theorem classifyRecord (h : s.MirrorsHeld) {f : Frame} (hv : ∀ i ∈ f.body.items, i.value.length = i.size.bytes) :
    (s.classifyRecord f).MirrorsHeld := by
  have hrecovered := ((h.hear f).sequenceStep.contentsStep.itemsStep hv).held.recoveryStep f.sender
  unfold State.classifyRecord State.metStep
  dsimp only
  split
  · exact hrecovered.testMet _
  · exact hrecovered

theorem checkEpoch (h : s.MirrorsHeld) (r : PeerRecord) (f : Frame) : (s.checkEpoch r f).MirrorsHeld := by
  unfold State.checkEpoch
  split
  · exact h
  · have hrestarted := (h.staleAll f.sender).mapPeer (n := f.sender)
      (PeerRecord.keepsPresence_freshStart f.isHello (fun r => { r.clearRecall with epoch := f.epoch, published := none })
        (fun _ => rfl) (fun _ => rfl))
    exact hrestarted.congr rfl rfl rfl

/-- A record that gives up its place takes its entries with it (R25, R55). -/
theorem reclaimRecord (h : s.MirrorsHeld) (n : Station) : (s.reclaimRecord n).MirrorsHeld := by
  have hsub : (s.points.removeAll n).mirrored.Sublist s.points.mirrored := List.filter_sublist
  refine ⟨?_, h.sorted.sublist hsub, fun e he => h.fits e (hsub.subset he), fun e he => ?_⟩
  · have hle := hsub.length_le
    have hcount := h.count
    show s.points.own.length + (s.points.removeAll n).mirrored.length ≤ 256
    omega
  · obtain ⟨r, hr, hrest⟩ := h.owned e (hsub.subset he)
    have hne : e.key.station ≠ n := by simpa [PointTable.removeAll] using (List.mem_filter.1 he).2
    have hkept : ∀ l : List PeerRecord,
        tableFind (fun r => r.station.toNat) e.key.station.toNat (tableErase (fun r => r.station.toNat) n.toNat l) =
          tableFind (fun r => r.station.toNat) e.key.station.toNat l := by
      intro l
      unfold tableFind tableErase
      rw [List.find?_filter]
      congr 1
      funext y
      have hne' : e.key.station.toNat ≠ n.toNat := fun hn => hne (BitVec.eq_of_toNat_eq hn)
      by_cases hy : y.station.toNat = e.key.station.toNat
      · simp [hy, hne']
      · simp [hy]
    exact ⟨r, (hkept _).trans hr, hrest⟩

/-- A new record has no entries yet (R57). -/
theorem createRecord (h : s.MirrorsHeld) {f : Frame} (hnone : s.peers.find? f.sender = none) :
    (s.createRecord f).MirrorsHeld := by
  refine ⟨h.count, h.sorted, h.fits, fun e he => ?_⟩
  obtain ⟨r, hr, hrest⟩ := h.owned e he
  have hne : e.key.station ≠ f.sender := fun hn => by rw [hn, hnone] at hr; cases hr
  have hstation : ((s.blankRecord f).freshStart f.isHello).station = f.sender := by
    unfold PeerRecord.freshStart
    split
    · rfl
    · split <;> rfl
  refine ⟨r, ?_, hrest⟩
  refine (tableFind_tableInsert_other ?_ _).trans hr
  rw [hstation]
  exact fun hn => hne (BitVec.eq_of_toNat_eq hn)

theorem makeRoom (h : s.MirrorsHeld) (hroom : s.makeRoom = some t) {m : Station} (hnone : s.peers.find? m = none) :
    t.MirrorsHeld ∧ t.peers.find? m = none := by
  unfold State.makeRoom at hroom
  split at hroom
  · cases hroom
    exact ⟨h, hnone⟩
  · obtain ⟨n, _, rfl⟩ := Option.map_eq_some_iff.1 hroom
    exact ⟨h.reclaimRecord n, State.find?_reclaimRecord_none hnone⟩

/-- The classification of a good frame (R54). -/
theorem classify (h : s.MirrorsHeld) {f : Frame} (hv : ∀ i ∈ f.body.items, i.value.length = i.size.bytes) :
    (s.classify f).MirrorsHeld := by
  unfold State.classify
  split
  next r _ =>
    have htaken := (h.checkEpoch r f).classifyRecord hv
    exact htaken.congr rfl rfl rfl
  next hnone =>
    split
    next t hroom =>
      obtain ⟨ht, htnone⟩ := h.makeRoom hroom hnone
      have htaken := (ht.createRecord htnone).classifyRecord hv
      exact htaken.congr rfl rfl rfl
    next => exact h.congr rfl rfl rfl

theorem mergeAsk (h : s.MirrorsHeld) (n : Station) (asked : IndexSet) : (s.mergeAsk n asked).MirrorsHeld := by
  unfold State.mergeAsk
  split
  · exact h
  · split
    · have hcovered := h.mapPeer (n := n) (f := fun r => { r with covered := r.covered ||| asked })
        (.of_state (fun _ => rfl) (fun _ => rfl) (fun _ => rfl))
      have htested := hcovered.testMet n
      exact htested.congr rfl rfl rfl
    · exact h

/-- The peer unit's event at a good frame (R54, R79). -/
theorem peerEvent (h : s.MirrorsHeld) {f : Frame} (hv : ∀ i ∈ f.body.items, i.value.length = i.size.bytes) :
    (s.peerEvent f).MirrorsHeld := by
  have hclassified := h.classify hv
  unfold State.peerEvent
  split
  · dsimp only
    split
    · exact hclassified
    · exact hclassified.mergeAsk _ _
  all_goals exact hclassified

/-! ### Timers, recall and the join -/

theorem fallSilent (h : s.MirrorsHeld) (r : PeerRecord) : (s.fallSilent r).MirrorsHeld := by
  have hstale : ∀ e ∈ (s.points.staleAll r.station).mirrored, e.key.station = r.station → e.state = .stale := by
    intro e he hn
    obtain ⟨x, _, rfl⟩ := List.mem_map.1 he
    by_cases hx : x.key.station = r.station
    · rw [if_pos hx]
    · rw [if_neg hx] at hn
      exact absurd hn hx
  have hsilent := (h.staleAll r.station).mapPeer_of_stale (n := r.station)
    (f := fun x => { x.clearRecall with
      state := .silent, silence := .running .loss (msPeriods (5 * r.periodMs s.control.timing)) })
    (fun _ => rfl) (fun _ => rfl) hstale
  exact hsilent.congr rfl rfl rfl

theorem becomeLost (h : s.MirrorsHeld) {r : PeerRecord} (hr : s.peers.find? r.station = some r)
    (hsilent : r.state = .silent) : (s.becomeLost r).MirrorsHeld := by
  have hstale : ∀ e ∈ s.points.mirrored, e.key.station = r.station → e.state = .stale := by
    intro e he hn
    obtain ⟨x, hx, _, haway⟩ := h.owned e he
    rw [hn, hr] at hx
    cases hx
    exact haway (by simp [PeerRecord.isAway, hsilent])
  have hlost := h.mapPeer_of_stale (n := r.station) (f := fun x => { x with state := .lost, silence := .stopped })
    (fun _ => rfl) (fun _ => rfl) hstale
  exact hlost.congr rfl rfl rfl

theorem silenceExpires (h : s.MirrorsHeld) {r : PeerRecord} (hr : s.peers.find? r.station = some r) :
    (s.silenceExpires r).MirrorsHeld := by
  unfold State.silenceExpires
  split
  · exact h.fallSilent r
  · exact h.fallSilent r
  next hsilent => exact h.becomeLost hr hsilent
  · exact h

theorem recallWaitExpires (h : s.MirrorsHeld) (r : PeerRecord) : (s.recallWaitExpires r).MirrorsHeld := by
  unfold State.recallWaitExpires
  split
  · have hdue := h.mapPeer (n := r.station) (f := fun r => { r with askDue := true, recallWait := .stopped })
      (.of_state (fun _ => rfl) (fun _ => rfl) (fun _ => rfl))
    exact hdue.congr rfl rfl rfl
  · have hfailed := (h.staleThese r.station r.need).mapPeer (n := r.station)
      (f := fun r => { r.clearRecall with state := .live, beaconWanted := false })
      (.of_present (fun _ => rfl) (fun _ => rfl) (fun _ => rfl))
    exact hfailed.congr rfl rfl rfl

theorem forceRecall (h : s.MirrorsHeld) (r : PeerRecord) : (s.forceRecall r).MirrorsHeld := by
  unfold State.forceRecall
  split
  · exact h
  · have hbegun := h.mapPeer (n := r.station) (f := fun r => r.beginRecall r.bounded)
      (.of_present (fun _ => rfl) (fun _ => rfl) (fun _ => rfl))
    exact hbegun.congr rfl rfl rfl

theorem mapWaits (h : s.MirrorsHeld) (f : Timer → Timer) : (s.setPeers (s.peers.mapWaits f)).MirrorsHeld :=
  h.mapRecords (g := fun r => { r with recallWait := f r.recallWait })
    (.of_state (fun _ => rfl) (fun _ => rfl) (fun _ => rfl)) rfl rfl

theorem joinRecall (h : s.MirrorsHeld) : s.joinRecall.MirrorsHeld := by
  have hjoined : (s.setPeers { s.peers with records := s.peers.records.map s.joinRecord }).MirrorsHeld :=
    h.mapRecords s.keepsPresence_joinRecord rfl rfl
  have hdone : ∀ (l : List Station) (u : State), u.MirrorsHeld → (l.foldl State.recoveryComplete u).MirrorsHeld := by
    intro l
    induction l with
    | nil => exact fun u hu => hu
    | cons n l ih => exact fun u hu => ih _ (hu.recoveryComplete n)
  exact (hdone (freeOrder s.freeCount s.joinDone) _ hjoined).congr rfl rfl rfl

end State.MirrorsHeld

end Sys2Proof.Machine
end

section
/-! PROOFS. Every step keeps each mirrored entry with a record of its owner: the local port, the line and the
transmission, the timers, and O60. -/

namespace Sys2Proof.Machine

open Sys2Proof

/-! ### Everything that bits of a transaction can do while collected commands stay in their class -/

theorem State.collect_effect {s : State} {c : PortCommand} (args : List Byte)
    (hc : c.classOf.opens s.control.state = true) :
    (∃ p, s.collect c args = s.setPort p ∧ (s.setPort p).collectingWf) ∨
      ∃ given, s.collect c args = State.answer c.code given (s.perform given c) := by
  rcases State.collect_cases s c args with ⟨needed, h⟩ | ⟨n, _, _, h⟩
  · refine .inl ⟨_, h, fun _ d hd => ?_⟩
    have hcode : (Port.collecting c.code args needed).code.bind PortCommand.ofCode = some c := PortCommand.ofCode_code c
    rw [State.setPort_port, hcode] at hd
    cases hd
    exact hc
  · exact .inr ⟨_, h⟩

/-- A bit before the take moves the port alone, and what it leaves to be collected is in its class; or the owner of a
command in its class acts. -/
theorem State.clockBit_effect {s : State} (b : Bool) (hw : s.collectingWf) (ht : s.port.hasTaken = false) :
    (∃ p, s.clockBit b = s.setPort p ∧ (s.setPort p).collectingWf) ∨
      ∃ c given, c.classOf.opens s.control.state = true ∧
        s.clockBit b = State.answer c.code given (s.perform given c) := by
  by_cases hclosed : s.port.phase = .closed
  · exact .inl ⟨s.port, by rw [State.clockBit, if_pos hclosed, State.setPort_self], hw⟩
  have hphase : s.port.phase = .code ∨ s.port.phase = .arguments :=
    (Port.hasTaken_eq_false.1 ht).resolve_left hclosed
  have hbit : s.clockBit b = (s.setPort s.port.drive).lclkRise b := by
    unfold State.clockBit
    rw [if_neg hclosed, if_neg, State.lclkFall_eq]
    · rintro ⟨hwaiting, _⟩
      simp [hwaiting] at hphase
    · rcases hphase with hp | hp <;> simp [Port.atRemoval, hp]
  rw [hbit, State.lclkRise]
  split
  · exact .inl ⟨_, rfl, hw⟩
  generalize wordOfBits 8 ((s.setPort s.port.drive).port.bits ++ [b]) = byte
  unfold State.takeByte
  rcases hphase with hp | hp
  · simp only [State.setPort_port, Port.drive, hp, State.takeCode_setPort]
    unfold State.takeCode
    split
    · exact .inl ⟨_, rfl, nofun⟩
    next c _ =>
      split
      next hopen =>
        rcases State.collect_effect [] hopen with h | ⟨given, h⟩
        · exact .inl h
        · exact .inr ⟨c, given, hopen, h⟩
      · exact .inl ⟨_, rfl, nofun⟩
  · simp only [State.setPort_port, Port.drive, hp]
    unfold State.takeArgument
    simp only [State.setPort_port]
    split
    next c hcode =>
      have hopen := hw hp c hcode
      rw [State.setPort_setPort, State.collect_setPort]
      rcases State.collect_effect (s.port.args ++ [byte]) hopen with h | ⟨given, h⟩
      · exact .inl h
      · exact .inr ⟨c, given, hopen, h⟩
    · exact .inl ⟨_, rfl, fun _ => hw hp⟩

/-- Bits of a transaction move the port and read free values, and at most one owner of a command in its class acts. -/
theorem State.clock_effect {s : State} (l : List Bool) (hw : s.collectingWf) :
    (∃ p n, s.clock l = { s with port := p, freeCount := n }) ∨
      ∃ c given p n, c.classOf.opens s.control.state = true ∧
        s.clock l = { (s.perform given c).2 with port := p, freeCount := n } := by
  induction l generalizing s with
  | nil => exact .inl ⟨s.port, s.freeCount, rfl⟩
  | cons b l ih =>
    cases ht : s.port.hasTaken with
    | true =>
      obtain ⟨p, n, h, _⟩ := State.clock_hasTaken (b :: l) ht
      exact .inl ⟨p, n, h⟩
    | false =>
      rw [State.clock_cons]
      rcases State.clockBit_effect b hw ht with ⟨p, h, hp⟩ | ⟨c, given, hopen, h⟩
      · rw [h]
        rcases ih hp with ⟨q, n, h'⟩ | ⟨c, given, q, n, hopen, h'⟩
        · exact .inl ⟨q, n, h'⟩
        · rw [State.perform_setPort] at h'
          exact .inr ⟨c, given, q, n, hopen, h'⟩
      · obtain ⟨q, n, h', _⟩ := State.clock_hasTaken (s := State.answer c.code given (s.perform given c)) l rfl
        exact .inr ⟨c, given, q, n, hopen, by rw [h, h']; rfl⟩

/-! ### Own entries -/

theorem PointTable.publish_mirrored (t : PointTable) (items : List Item) : (t.publish items).mirrored = t.mirrored := by
  unfold PointTable.publish
  induction items generalizing t with
  | nil => rfl
  | cons i l ih => exact ih _

theorem PointTable.publish_own_length (t : PointTable) (items : List Item) :
    (t.publish items).own.length = t.own.length := by
  unfold PointTable.publish
  induction items generalizing t with
  | nil => rfl
  | cons i l ih => exact (ih _).trans (List.length_map _)

/-! ### What owners supply -/

/-- What an owner supplies leaves the point table and the records alone. -/
theorem State.contents_tables {s t : State} {w : Want} {f : Frame} (hc : s.contents w = some (f, t)) :
    t.points = s.points ∧ t.peers.records = s.peers.records := by
  have hupdate : ∀ alarm items, s.startUpdate alarm items = some (f, t) →
      t.points = s.points ∧ t.peers.records = s.peers.records := by
    intro alarm items hstart
    unfold State.startUpdate at hstart
    split at hstart
    · cases hstart
    · cases hstart
      unfold State.lowerAlarmIfNone
      split
      · exact ⟨rfl, rfl⟩
      · exact ⟨rfl, rfl⟩
  cases w with
  | alarm => exact hupdate _ _ hc
  | routine => exact hupdate _ _ hc
  | hello => cases hc; exact ⟨rfl, rfl⟩
  | beacon => cases hc; exact ⟨rfl, rfl⟩
  | ask =>
    simp only [State.contents, State.startAsk] at hc
    split at hc
    · cases hc
    · cases hc
      exact ⟨rfl, rfl⟩
  | resend =>
    simp only [State.contents, State.startResend] at hc
    split at hc
    · cases hc
    · cases hc
      exact ⟨rfl, rfl⟩

namespace State.MirrorsHeld

variable {s t : State}

/-! ### The local port -/

theorem enterListening (h : s.MirrorsHeld) (cause : Cause) : (s.enterListening cause).MirrorsHeld :=
  (h.mapWaits Timer.hold).congr rfl rfl rfl

theorem writeOwn (h : s.MirrorsHeld) (i : Index) (value : List Byte) : (s.writeOwn i value).MirrorsHeld := by
  unfold State.writeOwn
  dsimp only
  split
  · exact h.congr (List.length_map _) rfl rfl
  · exact h.congr (List.length_map _) rfl rfl

/-- While the Peer Table is empty there is no mirrored entry, so COMMIT's own entries find room. -/
theorem commitAll (h : s.MirrorsHeld) (hrecords : s.peers.records = []) (hdecl : s.points.declarations.length ≤ 256) :
    s.commitAll.MirrorsHeld := by
  have hnil : s.points.mirrored = [] := by
    refine List.eq_nil_iff_forall_not_mem.2 fun e he => ?_
    obtain ⟨r, hr, _⟩ := h.owned e he
    have hmem := (tableFind_mem hr).1
    rw [hrecords] at hmem
    cases hmem
  exact of_nil ((List.length_map _).trans_le hdecl) hnil

theorem restartAll (h : s.MirrorsHeld) : s.restartAll.MirrorsHeld :=
  of_nil ((List.length_map _).trans_le ((Nat.le_add_right _ _).trans h.count)) rfl

theorem withdrawNow (h : s.MirrorsHeld) : s.withdrawNow.MirrorsHeld := by
  unfold State.withdrawNow
  split
  · exact h.congr rfl rfl rfl
  · exact h.enterListening .command

theorem rejoinNow (h : s.MirrorsHeld) : s.rejoinNow.MirrorsHeld :=
  (h.mapWaits Timer.drop).congr rfl rfl rfl

/-- The owner of a command that acts on tables keeps the invariant; the other owners do not touch them. -/
theorem perform (h : s.MirrorsHeld) {c : PortCommand} (args : List Byte)
    (hopen : c.classOf.opens s.control.state = true) (hempty : s.control.state = .configuring → s.peers.records = [])
    (hdecl : s.points.declarations.length ≤ 256) : (s.perform args c).2.MirrorsHeld := by
  cases c with
  | readStatus => exact h
  | readPoint =>
    show (readPoint args s).2.MirrorsHeld
    unfold readPoint
    repeat' split
    all_goals exact h
  | takeNotice =>
    show (takeNotice args s).2.MirrorsHeld
    unfold takeNotice
    split
    · exact h
    · exact h.congr rfl rfl rfl
  | readPeer =>
    show (readPeer args s).2.MirrorsHeld
    unfold readPeer
    repeat' split
    all_goals exact h
  | readTallies => exact h.congr rfl rfl rfl
  | clearFault =>
    show (clearFault args s).2.MirrorsHeld
    unfold clearFault
    repeat' split
    all_goals exact h.congr rfl rfl rfl
  | setIdentity =>
    show (setIdentity args s).2.MirrorsHeld
    unfold setIdentity
    repeat' split
    all_goals exact h.congr rfl rfl rfl
  | setTiming =>
    show (setTiming args s).2.MirrorsHeld
    unfold setTiming
    repeat' split
    all_goals exact h.congr rfl rfl rfl
  | declarePoint =>
    show (declarePoint args s).2.MirrorsHeld
    unfold declarePoint
    repeat' split
    all_goals exact h.congr rfl rfl rfl
  | setWindow =>
    show (setWindow args s).2.MirrorsHeld
    unfold setWindow
    repeat' split
    all_goals exact h.congr rfl rfl rfl
  | commit =>
    show (Machine.commit args s).2.MirrorsHeld
    unfold Machine.commit
    split
    · exact h
    · exact h.commitAll (hempty (eq_of_beq hopen)) hdecl
  | writePoint =>
    show (writePoint args s).2.MirrorsHeld
    unfold writePoint
    split
    · split
      · exact h.writeOwn _ _
      · exact h
    · exact h
  | recallPeer =>
    show (recallPeer args s).2.MirrorsHeld
    unfold recallPeer
    repeat' split
    case isFalse => exact h.forceRecall _
    all_goals exact h
  | withdraw =>
    show (withdraw args s).2.MirrorsHeld
    unfold withdraw
    split
    · exact h.withdrawNow
    · exact h.withdrawNow
    · exact h
    · exact h
  | rejoin =>
    show (rejoin args s).2.MirrorsHeld
    unfold rejoin
    split
    · exact h.rejoinNow
    all_goals exact h
  | restart => exact h.restartAll

theorem transact (h : s.MirrorsHeld) (c : Option PortCommand) (ldi : List Bool) (hw : s.collectingWf)
    (hempty : s.control.state = .configuring → s.peers.records = []) (hdecl : s.points.declarations.length ≤ 256) :
    (s.transact c ldi).MirrorsHeld := by
  unfold State.transact
  split
  · rcases State.clock_effect ldi hw with ⟨p, n, hclock⟩ | ⟨d, given, p, n, hopen, hclock⟩
    · rw [hclock]
      exact h.congr rfl rfl rfl
    · rw [hclock]
      exact (h.perform given hopen hempty hdecl).congr rfl rfl rfl
  · exact h

/-! ### The line and reception -/

theorem takeCells (h : s.MirrorsHeld) (cells : List Level) : (s.takeCells cells).MirrorsHeld :=
  h.congr (by rw [State.takeCells_points]) (by rw [State.takeCells_points]) (by rw [State.takeCells_peers])

theorem cutAssembly (h : s.MirrorsHeld) : s.cutAssembly.MirrorsHeld := by
  unfold State.cutAssembly
  split
  · exact h
  · exact h.congr rfl rfl rfl

theorem freeLine (h : s.MirrorsHeld) : s.freeLine.MirrorsHeld := h.cutAssembly.congr rfl rfl rfl

theorem duplicateDetected (h : s.MirrorsHeld) : s.duplicateDetected.MirrorsHeld := by
  have hflag : (s.setFaults { s.control.faults with duplicate := true }).MirrorsHeld := h.congr rfl rfl rfl
  unfold State.duplicateDetected
  dsimp only
  split
  · exact hflag.enterListening .duplicate
  · exact hflag.enterListening .duplicate
  all_goals exact h.congr rfl rfl rfl

theorem publishExpiry (h : s.MirrorsHeld) : s.publishExpiry.MirrorsHeld := by
  unfold State.publishExpiry
  split
  · exact h
  · exact h.congr rfl rfl rfl

theorem startPublishing (h : s.MirrorsHeld) : s.startPublishing.MirrorsHeld := by
  have htimers : (s.setPublication { s.publication with
      publishTimer := s.control.timing.publishFull
      beaconTimer := s.control.timing.beaconFull }).MirrorsHeld := h.congr rfl rfl rfl
  exact htimers.publishExpiry

theorem troubleExit (h : s.MirrorsHeld) : s.troubleExit.MirrorsHeld := by
  have hresumed : State.MirrorsHeld (State.setPeers ((s.setControl { s.control with
      lineTroubleCount := 0, joinTimer := .stopped, helloDone := true }).setPublication s.publication.resume)
      (s.peers.mapWaits Timer.resume)) := (h.mapWaits Timer.resume).congr rfl rfl rfl
  have hpublishing := hresumed.startPublishing
  unfold State.troubleExit
  dsimp only
  split
  · split
    · exact hresumed.joinRecall.congr rfl rfl rfl
    · exact hpublishing.joinRecall.congr rfl rfl rfl
  · split
    · exact hresumed.congr rfl rfl rfl
    · exact hpublishing.congr rfl rfl rfl

theorem controlEvent (h : s.MirrorsHeld) (f : Frame) : (s.controlEvent f).MirrorsHeld := by
  have hreport : ∀ u : State, u.MirrorsHeld → u.goodFrameReport.MirrorsHeld := by
    intro u hu
    unfold State.goodFrameReport
    split
    · split
      · exact hu.congr rfl rfl rfl
      · exact hu.troubleExit
    · exact hu
  unfold State.controlEvent
  split
  · refine hreport _ ?_
    unfold State.takeHello
    split
    · exact h.congr rfl rfl rfl
    · exact h
  · exact hreport _ h

theorem publicationEvent (h : s.MirrorsHeld) (f : Frame) : (s.publicationEvent f).MirrorsHeld := by
  unfold State.publicationEvent
  split
  · split
    · unfold State.takeRequest
      dsimp only
      split
      · exact h.congr rfl rfl rfl
      · exact h.congr rfl rfl rfl
    · exact h
  all_goals exact h

/-- The dispatch of a good frame, in either order of the blocks (R126, R127). -/
theorem dispatchGood (h : s.MirrorsHeld) {f : Frame} (hv : ∀ i ∈ f.body.items, i.value.length = i.size.bytes) :
    (s.dispatchGood f).MirrorsHeld := by
  have hfree : s.bumpFree.MirrorsHeld := h.congr rfl rfl rfl
  unfold State.dispatchGood
  dsimp only
  split
  · split
    · exact ((hfree.controlEvent f).peerEvent hv).publicationEvent f
    · exact ((hfree.peerEvent hv).controlEvent f).publicationEvent f
  · exact ((h.peerEvent hv).controlEvent f).publicationEvent f

theorem judgeFrame (h : s.MirrorsHeld) (w : WireFrame) : (s.judgeFrame w).MirrorsHeld := by
  have hcounted : (s.setFrame { s.frame with good := Tally.rise s.frame.good }).MirrorsHeld := h.congr rfl rfl rfl
  unfold State.judgeFrame
  split
  · split
    next f hf =>
      dsimp only
      split
      · exact hcounted.duplicateDetected
      · exact hcounted.dispatchGood (validate_values hf)
    next => exact h.congr rfl rfl rfl
  · exact h.congr rfl rfl rfl

/-! ### Transmission -/

theorem startFirst (h : s.MirrorsHeld) (wants : List Want) : (s.startFirst wants).MirrorsHeld := by
  induction wants generalizing s with
  | nil => exact h
  | cons w rest ih =>
    unfold State.startFirst
    split
    · split
      next f u hc =>
        obtain ⟨hpoints, hrecords⟩ := State.contents_tables hc
        exact h.congr (congrArg (fun p => p.own.length) hpoints) (congrArg PointTable.mirrored hpoints) hrecords
      next =>
        have hlowered : (s.setWant w false).MirrorsHeld := h.congr rfl rfl rfl
        exact ih hlowered
    · exact ih h

theorem start (h : s.MirrorsHeld) : s.start.MirrorsHeld := by
  unfold State.start
  split
  · exact h.startFirst _
  · exact h

theorem ownerCompleted (h : s.MirrorsHeld) (w : Want) : (s.ownerCompleted w).MirrorsHeld := by
  have hupdate : s.completeUpdate.MirrorsHeld := by
    unfold State.completeUpdate
    split
    · exact h
    · exact h.congr (PointTable.publish_own_length _ _) (PointTable.publish_mirrored _ _) rfl
  have hhello : s.completeHello.MirrorsHeld := by
    unfold State.completeHello
    dsimp only
    split
    · have hopened : State.MirrorsHeld ((s.setWant .hello false).setControl { s.control with
          helloDone := true, joinTimer := s.control.timing.joinFull }) := h.congr rfl rfl rfl
      exact hopened.startPublishing
    · exact h.congr rfl rfl rfl
  have hask : s.completeAsk.MirrorsHeld := by
    unfold State.completeAsk
    split
    · exact h
    next a _ =>
      have htarget := h.mapPeer (n := a.target) (f := fun r => r.askCompleted s.recallStart)
        (.of_state (fun _ => rfl) (fun _ => rfl) (fun _ => rfl))
      dsimp only
      split
      · exact htarget.congr rfl rfl rfl
      · exact h.congr rfl rfl rfl
  cases w with
  | alarm => exact hupdate
  | hello => exact hhello
  | ask => exact hask
  | routine => exact hupdate
  | beacon => exact h.congr rfl rfl rfl
  | resend => exact h.congr rfl rfl rfl

theorem ownerReturned (h : s.MirrorsHeld) (w : Want) : (s.ownerReturned w).MirrorsHeld := by
  have hupdate : s.returnUpdate.MirrorsHeld := by
    unfold State.returnUpdate
    split
    · exact h
    · exact h.congr rfl rfl rfl
  cases w with
  | alarm => exact hupdate
  | routine => exact hupdate
  | hello => exact h
  | beacon => exact h
  | ask => exact h.congr rfl rfl rfl
  | resend => exact h.congr rfl rfl rfl

theorem endFlight (h : s.MirrorsHeld) : s.endFlight.MirrorsHeld := by
  unfold State.endFlight
  split
  · exact h.enterListening .command
  · exact h

theorem takeCompleted (h : s.MirrorsHeld) (w : Want) : (s.takeCompleted w).MirrorsHeld := by
  have hlanded : State.MirrorsHeld (s.land.setArbiter { s.land.arbiter with failures := 0 }) := h.congr rfl rfl rfl
  exact (hlanded.ownerCompleted w).endFlight

theorem takeLost (h : s.MirrorsHeld) (w : Want) : (s.takeLost w).MirrorsHeld := by
  have hlanded : State.MirrorsHeld (s.land.setArbiter
      { s.land.arbiter with arbLost := Tally.rise s.land.arbiter.arbLost }) := h.congr rfl rfl rfl
  exact (hlanded.ownerReturned w).endFlight

theorem lineTrouble (h : s.MirrorsHeld) : s.lineTrouble.MirrorsHeld := by
  have hflag : (s.setFaults { s.control.faults with lineTrouble := true }).MirrorsHeld := h.congr rfl rfl rfl
  exact hflag.enterListening .lineTrouble

theorem takeFailed (h : s.MirrorsHeld) (w : Want) : (s.takeFailed w).MirrorsHeld := by
  have hlanded : State.MirrorsHeld (s.land.setArbiter { s.land.arbiter with
      txFail := Tally.rise s.land.arbiter.txFail, failures := s.land.arbiter.failures + 1 }) := h.congr rfl rfl rfl
  have hreturned := hlanded.ownerReturned w
  unfold State.takeFailed
  dsimp only
  split
  · exact hreturned.lineTrouble
  · exact hreturned.endFlight

/-! ### The clock -/

theorem idleTick (h : s.MirrorsHeld) : s.idleTick.MirrorsHeld :=
  h.mapRecords (g := fun r => { r with silence := r.silence.tick, recallWait := r.recallWait.tick })
    (.of_state (fun _ => rfl) (fun _ => rfl) (fun _ => rfl)) rfl rfl

end State.MirrorsHeld

/-! ### Every command -/

/-- Every command keeps the mirrored entries with their owners. Of the other invariants it needs that a command being
collected is in its class, that the Peer Table is empty in CONFIGURING, and that there is room for the declared points. -/
theorem exec_mirrorsHeld {s : State} (h : s.MirrorsHeld) (hw : s.collectingWf)
    (hempty : s.control.state = .configuring → s.peers.records = []) (hdecl : s.points.declarations.length ≤ 256)
    (c : Instr) : ∃ t, exec c s = .next t ∧ t.MirrorsHeld := by
  have hport : ∀ (c : Option PortCommand) (ldi : List Bool), (s.transact c ldi).MirrorsHeld :=
    fun c ldi => h.transact c ldi hw hempty hdecl
  cases c with
  | transactionOpen =>
    refine ⟨_, rfl, ?_⟩
    split
    · exact h.congr rfl rfl rfl
    · exact h
  | transactionClose => exact ⟨_, rfl, h.congr rfl rfl rfl⟩
  | badCommand ldi => exact ⟨_, rfl, hport _ ldi⟩
  | setIdentity ldi => exact ⟨_, rfl, hport _ ldi⟩
  | setTiming ldi => exact ⟨_, rfl, hport _ ldi⟩
  | declarePoint ldi => exact ⟨_, rfl, hport _ ldi⟩
  | setWindow ldi => exact ⟨_, rfl, hport _ ldi⟩
  | commit ldi => exact ⟨_, rfl, hport _ ldi⟩
  | readStatus ldi => exact ⟨_, rfl, hport _ ldi⟩
  | readPoint ldi => exact ⟨_, rfl, hport _ ldi⟩
  | takeNotice ldi => exact ⟨_, rfl, hport _ ldi⟩
  | readPeer ldi => exact ⟨_, rfl, hport _ ldi⟩
  | readTallies ldi => exact ⟨_, rfl, hport _ ldi⟩
  | clearFault ldi => exact ⟨_, rfl, hport _ ldi⟩
  | writePoint ldi => exact ⟨_, rfl, hport _ ldi⟩
  | recallPeer ldi => exact ⟨_, rfl, hport _ ldi⟩
  | withdraw ldi => exact ⟨_, rfl, hport _ ldi⟩
  | rejoin ldi => exact ⟨_, rfl, hport _ ldi⟩
  | restart ldi => exact ⟨_, rfl, hport _ ldi⟩
  | coldReset => exact ⟨_, rfl, .of_nil (Nat.zero_le _) rfl⟩
  | noticeRemoval =>
    refine ⟨_, rfl, ?_⟩
    split
    · exact h
    · exact h.congr rfl rfl rfl
  | lineBusy cells =>
    refine ⟨_, rfl, ?_⟩
    split
    · dsimp only
      split
      · exact h.congr rfl rfl rfl
      · refine State.MirrorsHeld.takeCells ?_ cells
        exact h.congr rfl rfl rfl
    · exact h
  | lineIdle cells =>
    refine ⟨_, rfl, ?_⟩
    split
    · exact (h.takeCells cells).freeLine
    · exact h
  | lineBreak cells =>
    refine ⟨_, rfl, ?_⟩
    split
    · exact (h.takeCells cells).cutAssembly.congr rfl rfl rfl
    · exact h
  | stuck =>
    refine ⟨_, rfl, ?_⟩
    split
    · exact h.congr rfl rfl rfl
    · exact h
  | stuckEnd =>
    refine ⟨_, rfl, ?_⟩
    split
    · exact h.freeLine
    · exact h
  | earlyEdge =>
    refine ⟨_, rfl, ?_⟩
    split
    · exact h.congr rfl rfl rfl
    · exact h
  | frameEnd cells =>
    have hended : s.finishAssembly.MirrorsHeld := h.congr rfl rfl rfl
    refine ⟨_, rfl, ?_⟩
    split
    · exact h
    · dsimp only
      split
      · split
        · exact hended
        · exact hended.judgeFrame _
      · exact h
  | transmitStart => exact ⟨_, rfl, h.start⟩
  | completed =>
    refine ⟨_, rfl, ?_⟩
    split
    · split
      · refine State.MirrorsHeld.takeCompleted ?_ _
        rw [State.finishOwn_eq]
        exact h.congr rfl rfl rfl
      · exact h
    · exact h
  | lost =>
    refine ⟨_, rfl, ?_⟩
    split
    · split
      · exact (h.takeLost _).takeCells _
      · exact h
    · exact h
  | bitError cells =>
    refine ⟨_, rfl, ?_⟩
    split
    · have hmismatched := h.takeCells (cells.take 1)
      refine State.MirrorsHeld.takeCells ?_ _
      exact hmismatched.congr rfl rfl rfl
    · exact h
  | failed =>
    refine ⟨_, rfl, ?_⟩
    split
    · split
      · exact h.takeFailed _
      · exact h
    · exact h
  | publishTimerExpiry =>
    refine ⟨_, rfl, ?_⟩
    split
    · exact State.MirrorsHeld.publishExpiry (h.congr rfl rfl rfl)
    · exact h
  | beaconTimerExpiry =>
    refine ⟨_, rfl, ?_⟩
    split
    · exact h.congr rfl rfl rfl
    · exact h
  | silenceTimerExpiry peer =>
    refine ⟨_, rfl, ?_⟩
    split
    next r hr =>
      split
      · exact h.silenceExpires (by rw [PeerUnit.find?_station hr]; exact hr)
      · exact h
    · exact h
  | recallWaitExpiry peer =>
    refine ⟨_, rfl, ?_⟩
    split
    · split
      · exact h.recallWaitExpires _
      · exact h
    · exact h
  | joinExpiry =>
    refine ⟨_, rfl, ?_⟩
    split
    · exact h.joinRecall.congr rfl rfl rfl
    · exact h
  | helloHoldExpiry =>
    refine ⟨_, rfl, ?_⟩
    split
    · exact h.congr rfl rfl rfl
    · exact h
  | millisecondClockAdvance =>
    exact ⟨_, rfl, (h.mapMirrored (MirrorEntry.keepsContents_watchAge (s.control.clock + 1))).congr rfl rfl rfl⟩
  | breakEnd =>
    refine ⟨_, rfl, ?_⟩
    split
    · exact h.congr rfl rfl rfl
    · exact h

end Sys2Proof.Machine

open Sys2Proof Sys2Proof.Machine

/-- Settles O60: the invariant with the owner found by lookup is kept by every command and by an idle period, and is the
stated one where the Peer Table is sorted. -/
theorem stepKeepsMirrorsOwned : Obligations.StepKeepsMirrorsOwned := by
  intro s t _ _ hcollecting ⟨⟨hdeclared, _⟩, _⟩ ⟨_, hsorted, _, _, _, _, _, _, hempty⟩ hmirrors hstep
  have h := State.mirrorsHeld_of_mirrorsWf hsorted hmirrors
  unfold step at hstep
  split at hstep
  · cases hstep
    exact h.idleTick.mirrorsWf
  next c rest _ =>
    have hrest : ({ s with pending := rest } : State).MirrorsHeld := h.congr rfl rfl rfl
    have hdecl : s.points.declarations.length ≤ 256 :=
      (tableSorted_length_le hdeclared (fun d _ => d.index.isLt)).trans (by decide)
    obtain ⟨u, hu, hheld⟩ := exec_mirrorsHeld hrest hcollecting hempty hdecl c
    cases hu.symm.trans hstep
    exact hheld.mirrorsWf
end

section
/-! PROOFS. Items at the point table: the version relation, the judgement of an item at an entry, and what each judgement
does (O34, O35, O36). -/

namespace Sys2Proof.Machine

open Sys2Proof

/-! ### Versions -/

theorem version_sub_toNat (v h : Byte) : (v - h).toNat = (v.toNat + 256 - h.toNat) % 256 := by
  rw [BitVec.toNat_sub]
  have hh : h.toNat < 256 := h.isLt
  omega

/-- The version relation in the distance modulo 256 (R9). -/
theorem versionRelation_eq {v h : Byte} {d : Nat} (hd : d = (v.toNat + 256 - h.toNat) % 256) :
    versionRelation v h = if d = 0 then .same else if 1 ≤ d ∧ d ≤ 127 then .newer else .older := by
  unfold versionRelation
  rw [version_sub_toNat, ← hd]
  dsimp only
  split
  · rfl
  · exact if_congr (by omega) rfl rfl

section

variable {v h : Byte} {d : Nat}

theorem versionRelation_same (hd : d = (v.toNat + 256 - h.toNat) % 256) (h0 : d = 0) : versionRelation v h = .same := by
  rw [versionRelation_eq hd, if_pos h0]

theorem versionRelation_newer (hd : d = (v.toNat + 256 - h.toNat) % 256) (hn : 1 ≤ d ∧ d ≤ 127) :
    versionRelation v h = .newer := by
  rw [versionRelation_eq hd, if_neg (by omega), if_pos hn]

theorem versionRelation_older (hd : d = (v.toNat + 256 - h.toNat) % 256) (ho : 128 ≤ d) :
    versionRelation v h = .older := by
  rw [versionRelation_eq hd, if_neg (by omega), if_neg (by omega)]

theorem version_eq_iff (hd : d = (v.toNat + 256 - h.toNat) % 256) : d = 0 ↔ h = v := by
  have hv : v.toNat < 256 := v.isLt
  have hh : h.toNat < 256 := h.isLt
  rw [← BitVec.toNat_inj]
  omega

end

/-! ### The judgement -/

theorem MirrorEntry.holdsSame_iff (e : MirrorEntry) (i : Item) :
    e.holdsSame i = true ↔ e.version = i.version ∧ e.size = i.size ∧ e.value = i.value := by
  simp [MirrorEntry.holdsSame, and_assoc]

/-- An item holds what the entry holds exactly at distance 0 with equal size and value. -/
theorem MirrorEntry.holdsSame_iff_distance {e : MirrorEntry} {i : Item} {d : Nat}
    (hd : d = (i.version.toNat + 256 - e.version.toNat) % 256) :
    e.holdsSame i = true ↔ d = 0 ∧ i.size = e.size ∧ i.value = e.value := by
  rw [MirrorEntry.holdsSame_iff, version_eq_iff hd, eq_comm (a := e.size), eq_comm (a := e.value)]

section

variable {e : MirrorEntry} {i : Item}

/-- What R14 decides at a STALE entry. -/
theorem MirrorEntry.judge_stale (c : Carrier) (hs : e.state = .stale) :
    e.judge c i = if e.holdsSame i then .refresh else .apply false := by
  unfold MirrorEntry.judge
  rw [hs]

theorem MirrorEntry.judge_newer (c : Carrier) (hs : e.state ≠ .stale)
    (hr : versionRelation i.version e.version = .newer) : e.judge c i = .apply (i.size != e.size) := by
  unfold MirrorEntry.judge
  rw [hr]
  cases he : e.state with
  | stale => exact absurd he hs
  | valid => rfl
  | suspect => rfl

theorem MirrorEntry.judge_same (c : Carrier) (hs : e.state ≠ .stale)
    (hr : versionRelation i.version e.version = .same) :
    e.judge c i = if e.holdsSame i then .refresh else .apply true := by
  unfold MirrorEntry.judge
  rw [hr]
  cases he : e.state with
  | stale => exact absurd he hs
  | valid => rfl
  | suspect => rfl

theorem MirrorEntry.judge_older_valid (c : Carrier) (hs : e.state = .valid)
    (hr : versionRelation i.version e.version = .older) : e.judge c i = .ignore := by
  unfold MirrorEntry.judge
  rw [hs, hr]

/-- The carrier shows at an older item on a SUSPECT entry alone (R13). -/
theorem MirrorEntry.judge_older_suspect (c : Carrier) (hs : e.state = .suspect)
    (hr : versionRelation i.version e.version = .older) :
    e.judge c i = if c = .resend then .apply false else .ignore := by
  unfold MirrorEntry.judge
  rw [hs, hr]

end

/-! ### What a judgement does -/

section

variable {s : State} {n : Station} {interest : IndexSet} {c : Carrier} {i : Item} {e : MirrorEntry}

theorem State.takeItem_ignore (he : s.points.mirror? ⟨n, i.index⟩ = some e) (hj : e.judge c i = .ignore) :
    s.takeItem n interest c i = s := by
  unfold State.takeItem
  simp only [he, hj]

theorem State.takeItem_refresh (he : s.points.mirror? ⟨n, i.index⟩ = some e) (hj : e.judge c i = .refresh) :
    s.takeItem n interest c i =
      { s with
        points := s.points.putMirror (e.refreshed s.control.clock)
        notices := s.notices.offer ⟨.refreshed ⟨n, i.index⟩ e.version, s.control.clock⟩ } := by
  unfold State.takeItem
  simp only [he, hj]
  rfl

theorem State.takeItem_apply (he : s.points.mirror? ⟨n, i.index⟩ = some e) (hj : e.judge c i = .apply false) :
    s.takeItem n interest c i =
      { s with
        points := s.points.putMirror (appliedEntry ⟨n, i.index⟩ i s.control.clock)
        notices := s.notices.offer ⟨.updated ⟨n, i.index⟩ i.version, s.control.clock⟩ } := by
  unfold State.takeItem
  simp only [he, hj]
  rfl

/-- CLASH follows UPDATED (R17). -/
theorem State.takeItem_clash (he : s.points.mirror? ⟨n, i.index⟩ = some e) (hj : e.judge c i = .apply true) :
    s.takeItem n interest c i =
      { s with
        points := s.points.putMirror (appliedEntry ⟨n, i.index⟩ i s.control.clock)
        notices := (s.notices.offer ⟨.updated ⟨n, i.index⟩ i.version, s.control.clock⟩).offer
          ⟨.clash ⟨n, i.index⟩ i.version, s.control.clock⟩ } := by
  unfold State.takeItem
  simp only [he, hj]
  rfl

theorem State.takeItem_absent (hnone : s.points.mirror? ⟨n, i.index⟩ = none) :
    s.takeItem n interest c i = if IndexSet.mem interest i.index then s.createEntry ⟨n, i.index⟩ i else s := by
  unfold State.takeItem
  simp only [hnone]

end

theorem PointTable.mirror?_putMirror_self (t : PointTable) (x : MirrorEntry) :
    (t.putMirror x).mirror? x.key = some x := tableFind_tableInsert_self x _

theorem PointTable.mirror?_putMirror_other (t : PointTable) {x : MirrorEntry} {k : Key} (hk : k ≠ x.key) :
    (t.putMirror x).mirror? k = t.mirror? k :=
  tableFind_tableInsert_other (key := fun e : MirrorEntry => e.key.rank) (fun h => hk (Key.rank_injective h)) _

/-! ### Reclaim -/

/-- The entry that a full table gives up: in a sorted table the first that is STALE under a LOST peer has the lowest
key (R19). -/
theorem State.reclaimEntry?_eq {s : State} {e : MirrorEntry}
    (hsorted : tableSorted (fun e : MirrorEntry => e.key.rank) s.points.mirrored) (he : e ∈ s.points.mirrored)
    (hstale : e.state = .stale) (hlost : s.peers.isLost e.key.station = true)
    (hmin : ∀ e' ∈ s.points.mirrored, e'.state = .stale → s.peers.isLost e'.key.station = true →
      e.key.rank ≤ e'.key.rank) : s.reclaimEntry? = some e := by
  have hmay : (e.state == .stale && s.peers.isLost e.key.station) = true := by simp [hstale, hlost]
  obtain ⟨before, after, hsplit⟩ := List.append_of_mem he
  refine List.find?_eq_some_iff_append.2 ⟨hmay, before, after, hsplit, fun x hx => ?_⟩
  rw [hsplit] at hsorted
  have hlt : x.key.rank < e.key.rank := (List.pairwise_append.1 hsorted).2.2 x hx e List.mem_cons_self
  cases hx' : (x.state == .stale && s.peers.isLost x.key.station) with
  | false => rfl
  | true =>
    obtain ⟨hs, hl⟩ := Bool.and_eq_true_iff.1 hx'
    have hle := hmin x (by rw [hsplit]; exact List.mem_append_left _ hx) (eq_of_beq hs) hl
    omega

theorem State.reclaimEntry?_none {s : State}
    (h : ∀ e ∈ s.points.mirrored, e.state = .stale → s.peers.isLost e.key.station = false) : s.reclaimEntry? = none := by
  refine List.find?_eq_none.2 fun e he => ?_
  by_cases hs : e.state = .stale
  · simp [h e he hs]
  · simp [hs]

/-- Freeing an entry is leaving out its key. -/
theorem PointTable.freeMirror_eq (t : PointTable) (k : Key) :
    t.freeMirror k = { t with mirrored := t.mirrored.filter (fun x => decide (x.key ≠ k)) } := by
  have hkeys : (fun x : MirrorEntry => x.key.rank != k.rank) = fun x => decide (x.key ≠ k) := by
    funext x
    by_cases hx : x.key = k
    · simp [hx]
    · have hrank : x.key.rank ≠ k.rank := fun h => hx (Key.rank_injective h)
      simp [hx, hrank]
  unfold PointTable.freeMirror tableErase
  rw [hkeys]

section

variable {s : State} (k : Key) (i : Item)

theorem State.createEntry_room (h : s.points.count < 256) :
    s.createEntry k i =
      { s with
        points := s.points.putMirror (appliedEntry k i s.control.clock)
        notices := s.notices.offer ⟨.updated k i.version, s.control.clock⟩ } := by
  unfold State.createEntry
  rw [if_pos h]
  rfl

theorem State.createEntry_reclaim {e : MirrorEntry} (h : ¬s.points.count < 256) (he : s.reclaimEntry? = some e) :
    s.createEntry k i =
      { s with
        points := (s.points.freeMirror e.key).putMirror (appliedEntry k i s.control.clock)
        notices := s.notices.offer ⟨.updated k i.version, s.control.clock⟩ } := by
  unfold State.createEntry
  rw [if_neg h, he]
  rfl

theorem State.createEntry_refused (h : ¬s.points.count < 256) (he : s.reclaimEntry? = none) :
    s.createEntry k i =
      { s with
        control := { s.control with faults := { s.control.faults with tableFull := true } }
        notices := s.notices.offer ⟨.tableFull k i.version, s.control.clock⟩ } := by
  unfold State.createEntry
  rw [if_neg h, he]
  rfl

end

end Sys2Proof.Machine

open Sys2Proof Sys2Proof.Machine

/-- Settles O34, by the version relation of the item to the entry. -/
theorem itemAtAValidEntry : Obligations.ItemAtAValidEntry := by
  rintro s n interest c i e applied refreshed d he hvalid hd rfl rfl
  have hstale : e.state ≠ .stale := by simp [hvalid]
  have hsame := MirrorEntry.holdsSame_iff_distance (e := e) (i := i) hd
  refine ⟨versionRelation_eq hd, ?_, ?_, ?_, ?_, ?_⟩
  · intro x hx
    rw [← hx]
    exact ⟨PointTable.mirror?_putMirror_self _ x, fun k hk => PointTable.mirror?_putMirror_other _ hk⟩
  · intro hnewer hsize
    refine State.takeItem_apply he ?_
    rw [MirrorEntry.judge_newer c hstale (versionRelation_newer hd hnewer), hsize, bne_self_eq_false]
  · rintro (⟨hlow, hhigh, hsize⟩ | ⟨h0, hdiffer⟩)
    · refine State.takeItem_clash he ?_
      rw [MirrorEntry.judge_newer c hstale (versionRelation_newer hd ⟨hlow, hhigh⟩), bne_iff_ne.2 hsize]
    · refine State.takeItem_clash he ?_
      rw [MirrorEntry.judge_same c hstale (versionRelation_same hd h0), if_neg (fun h => hdiffer (hsame.1 h).2)]
  · intro h0 hequal
    have hrefreshed : e.refreshed s.control.clock = { e with time := s.control.clock, ageSaturated := false } := by
      rw [MirrorEntry.refreshed, ← hvalid]
    rw [← hrefreshed]
    refine State.takeItem_refresh he ?_
    rw [MirrorEntry.judge_same c hstale (versionRelation_same hd h0), if_pos (hsame.2 ⟨h0, hequal⟩)]
  · intro holder
    exact State.takeItem_ignore he (MirrorEntry.judge_older_valid c hvalid (versionRelation_older hd holder))

/-- Settles O35, by the entry's state and the version relation. -/
theorem itemAtADoubtedEntry : Obligations.ItemAtADoubtedEntry := by
  rintro s n interest c i e applied refreshed d same he hd rfl rfl rfl
  have hsame := MirrorEntry.holdsSame_iff_distance (e := e) (i := i) hd
  refine ⟨?_, ?_, ?_, ?_⟩
  · intro _ h0 hequal
    refine State.takeItem_refresh he ?_
    have hholds := hsame.2 ⟨h0, hequal⟩
    by_cases hs : e.state = .stale
    · rw [MirrorEntry.judge_stale c hs, if_pos hholds]
    · rw [MirrorEntry.judge_same c hs (versionRelation_same hd h0), if_pos hholds]
  · rintro hs holder rfl
    refine State.takeItem_ignore he ?_
    rw [MirrorEntry.judge_older_suspect _ hs (versionRelation_older hd holder), if_neg (by decide)]
  · rintro (⟨hs, hdiffer⟩ | ⟨hs, ⟨holder, rfl⟩ | ⟨hlow, hhigh, hsize⟩⟩)
    · refine State.takeItem_apply he ?_
      rw [MirrorEntry.judge_stale c hs, if_neg (fun h => hdiffer (hsame.1 h))]
    · refine State.takeItem_apply he ?_
      rw [MirrorEntry.judge_older_suspect _ hs (versionRelation_older hd holder), if_pos rfl]
    · refine State.takeItem_apply he ?_
      rw [MirrorEntry.judge_newer c (by simp [hs]) (versionRelation_newer hd ⟨hlow, hhigh⟩), hsize, bne_self_eq_false]
  · rintro hs (⟨h0, hdiffer⟩ | ⟨hlow, hhigh, hsize⟩)
    · refine State.takeItem_clash he ?_
      rw [MirrorEntry.judge_same c (by simp [hs]) (versionRelation_same hd h0),
        if_neg (fun h => hdiffer (hsame.1 h).2)]
    · refine State.takeItem_clash he ?_
      rw [MirrorEntry.judge_newer c (by simp [hs]) (versionRelation_newer hd ⟨hlow, hhigh⟩), bne_iff_ne.2 hsize]

/-- Settles O36, by interest, room and the entry to reclaim. -/
theorem itemAtAnAbsentKey : Obligations.ItemAtAnAbsentKey := by
  rintro s n interest c i created hsorted hnone rfl
  rw [State.takeItem_absent hnone]
  refine ⟨fun hout => if_neg (by simp [hout]), fun hin => ?_⟩
  rw [if_pos hin]
  refine ⟨fun hroom => State.createEntry_room _ i hroom, fun hfull => ?_⟩
  have hfull' : ¬s.points.count < 256 := by
    unfold PointTable.count
    omega
  constructor
  · intro e he hstale hlost hmin
    rw [State.createEntry_reclaim _ i hfull' (State.reclaimEntry?_eq hsorted he hstale hlost hmin),
      PointTable.freeMirror_eq]
    rfl
  · intro hkept
    exact State.createEntry_refused _ i hfull' (State.reclaimEntry?_none hkept)
end

section
/-! PROOFS. Peer records: what the steps of a classification do at the sender's record and leave alone at the others (O31,
O32, O37, O38). -/

namespace Sys2Proof.Machine

open Sys2Proof

/-! ### Closed forms of the shared operations -/

/-- The ASK want follows the records and the marker, and nothing else changes (R74). -/
theorem State.judgeAsk_eq (s : State) :
    s.judgeAsk = { s with
      arbiter := { s.arbiter with
        wants := { s.arbiter.wants with ask := s.peers.records.any (fun r => r.askDue) && s.peers.asking.isNone } } } :=
  rfl

theorem State.disown_eq (s : State) (n : Station) :
    s.disown n = { s with
      peers := { s.peers with
        asking := s.peers.asking.map (fun a => { a with owned := a.owned && decide (a.target ≠ n) }) } } := by
  rw [← State.disown_asking]
  rfl

theorem lossList_filter (l : List Station) (n : Station) :
    l.filter (fun m => m != n) = l.filter (fun m => decide (m ≠ n)) := by
  congr 1
  funext m
  by_cases hm : m = n <;> simp [hm]

theorem Frame.isHello_eq (f : Frame) : f.isHello = decide (f.body.kind = .hello) := by
  unfold Frame.isHello
  cases f.body.kind <;> rfl

theorem State.isOwn_iff (s : State) (n : Station) : s.isOwn n = true ↔ s.control.station = some n := beq_iff_eq

/-- What a new record and a new epoch take from the frame's kind, field by field (R57, R58, R73). -/
theorem PeerRecord.freshStart_eq (r : PeerRecord) (f : Frame) :
    r.freshStart f.isHello =
      { r with
        state := if f.body.kind = .hello ∨ r.interest = 0 then .live else .recovering
        need := if f.body.kind = .hello then 0 else r.interest
        askDue := decide (f.body.kind ≠ .hello ∧ r.interest ≠ 0)
        beaconWanted := decide (f.body.kind ≠ .hello ∧ r.interest ≠ 0)
        expected := if f.body.kind = .hello then some 0 else none } := by
  unfold PeerRecord.freshStart
  rw [Frame.isHello_eq]
  by_cases hk : f.body.kind = .hello
  · simp [hk]
  · by_cases hi : r.interest = 0#64
    · simp [hk, hi]
    · simp [hk, hi]

/-! ### A new epoch -/

theorem State.checkEpoch_same {s : State} {r : PeerRecord} {f : Frame} (h : r.epoch = f.epoch) :
    s.checkEpoch r f = s := if_pos h

/-- The record of a peer that has restarted (R58). -/
def PeerRecord.restarted (f : Frame) (r : PeerRecord) : PeerRecord :=
  { r.clearRecall with epoch := f.epoch, published := none }.freshStart f.isHello

theorem PeerRecord.restarted_station (f : Frame) (r : PeerRecord) : (r.restarted f).station = r.station := by
  unfold PeerRecord.restarted
  rw [PeerRecord.freshStart_eq]
  rfl

theorem State.checkEpoch_other {s : State} {r : PeerRecord} {f : Frame} (h : r.epoch ≠ f.epoch) :
    s.checkEpoch r f =
      { s with
        points := s.points.staleAll f.sender
        peers :=
          ⟨(s.mapPeer f.sender (PeerRecord.restarted f)).peers.records,
            s.peers.lossList.filter (fun m => decide (m ≠ f.sender)),
            s.peers.asking.map (fun a => { a with owned := a.owned && decide (a.target ≠ f.sender) })⟩
        notices := s.notices.offer ⟨.peer .restarted f.sender, s.control.clock⟩ } := by
  unfold State.checkEpoch
  rw [if_neg h]
  unfold State.epochChange
  dsimp only
  rw [State.disown_eq, lossList_filter]
  rfl

/-! ### Room for a record -/

theorem PeerUnit.dropRecord_eq (u : PeerUnit) (n : Station) :
    u.dropRecord n =
      ⟨u.records.filter (fun r => decide (r.station ≠ n)), u.lossList.filter (fun m => decide (m ≠ n)), u.asking⟩ := by
  have hkeys : (fun r : PeerRecord => r.station.toNat != n.toNat) = fun r => decide (r.station ≠ n) := by
    funext r
    by_cases hr : r.station = n
    · simp [hr]
    · have hne : r.station.toNat ≠ n.toNat := fun h => hr (BitVec.eq_of_toNat_eq h)
      simp [hr, hne]
  unfold PeerUnit.dropRecord tableErase
  rw [hkeys, lossList_filter]

theorem State.reclaimRecord_eq (s : State) (n : Station) :
    s.reclaimRecord n =
      { s with
        points := { s.points with mirrored := s.points.mirrored.filter (fun e => decide (e.key.station ≠ n)) }
        peers :=
          ⟨s.peers.records.filter (fun r => decide (r.station ≠ n)),
            s.peers.lossList.filter (fun m => decide (m ≠ n)),
            s.peers.asking.map (fun a => { a with owned := a.owned && decide (a.target ≠ n) })⟩ } := by
  have hentries : (fun e : MirrorEntry => e.key.station != n) = fun e => decide (e.key.station ≠ n) := by
    funext e
    by_cases he : e.key.station = n <;> simp [he]
  unfold State.reclaimRecord PointTable.removeAll
  rw [State.disown_eq, PeerUnit.dropRecord_eq, hentries]
  rfl

/-- The head of the loss list gives up its place. -/
theorem PeerUnit.reclaimStation?_head {u : PeerUnit} {n : Station} (h : u.lossList.head? = some n) :
    u.reclaimStation? = some n := by
  unfold PeerUnit.reclaimStation?
  cases hl : u.lossList with
  | nil => simp [hl] at h
  | cons m l =>
    rw [hl] at h
    exact h

/-- Without a loss list the lowest station without interest does: in a sorted table it is the first (R55). -/
theorem PeerUnit.reclaimStation?_lowest {u : PeerUnit} {n : Station}
    (hsorted : tableSorted (fun r : PeerRecord => r.station.toNat) u.records) (hlist : u.lossList = [])
    (hn : ∃ r ∈ u.records, r.interest = 0 ∧ r.station = n)
    (hmin : ∀ r ∈ u.records, r.interest = 0 → n.toNat ≤ r.station.toNat) : u.reclaimStation? = some n := by
  obtain ⟨r, hr, hinterest, hstation⟩ := hn
  obtain ⟨before, after, hsplit⟩ := List.append_of_mem hr
  have hfind : u.records.find? (fun r => r.interest == 0) = some r := by
    refine List.find?_eq_some_iff_append.2 ⟨by simp [hinterest], before, after, hsplit, fun x hx => ?_⟩
    rw [hsplit] at hsorted
    have hlt : x.station.toNat < r.station.toNat := (List.pairwise_append.1 hsorted).2.2 x hx r List.mem_cons_self
    have hx0 : x.interest ≠ 0 := by
      intro hx0
      have hle := hmin x (by rw [hsplit]; exact List.mem_append_left _ hx) hx0
      rw [← hstation] at hle
      omega
    simpa using hx0
  unfold PeerUnit.reclaimStation?
  rw [hlist]
  simp only [hfind, Option.map_some, hstation]

theorem PeerUnit.reclaimStation?_none {u : PeerUnit} (hlist : u.lossList = []) (h : ∀ r ∈ u.records, r.interest ≠ 0) :
    u.reclaimStation? = none := by
  have hfind : u.records.find? (fun r => r.interest == 0) = none :=
    List.find?_eq_none.2 fun r hr => by simpa using h r hr
  unfold PeerUnit.reclaimStation?
  rw [hlist]
  simp only [hfind, Option.map_none]

theorem State.classify_known {s : State} {f : Frame} {r : PeerRecord} (h : s.peers.find? f.sender = some r) :
    s.classify f = ((s.checkEpoch r f).classifyRecord f).judgeAsk := by
  unfold State.classify
  simp only [h]

theorem State.classify_new {s t : State} {f : Frame} (h : s.peers.find? f.sender = none) (hroom : s.makeRoom = some t) :
    s.classify f = ((t.createRecord f).classifyRecord f).judgeAsk := by
  unfold State.classify
  simp only [h, hroom]

theorem State.classify_overflow {s : State} {f : Frame} (h : s.peers.find? f.sender = none) (hroom : s.makeRoom = none) :
    s.classify f = s.peerOverflow f.sender := by
  unfold State.classify
  simp only [h, hroom]

theorem State.makeRoom_full {s : State} (h : 32 ≤ s.peers.records.length) :
    s.makeRoom = s.peers.reclaimStation?.map s.reclaimRecord := if_neg (by omega)

/-! ### The sequence check -/

section

variable {s : State} {n : Station} {r : PeerRecord} {q : Byte} (next : Byte)

/-- An unknown expectation and a met one take the next one (R60). -/
theorem State.checkSequence_met (hr : s.peers.find? n = some r) (h : r.expected = none ∨ r.expected = some q) :
    s.checkSequence n q next = s.mapPeer n (fun r => { r with expected := some next }) := by
  unfold State.checkSequence
  rw [hr, Option.bind_some]
  rcases h with h | h
  · simp only [h]
  · simp only [h, if_true]

theorem State.checkSequence_gap {e : Byte} (hr : s.peers.find? n = some r) (he : r.expected = some e) (hq : e ≠ q) :
    s.checkSequence n q next = s.takeGap n next := by
  unfold State.checkSequence
  rw [hr, Option.bind_some]
  simp only [he, if_neg hq]

end

/-- What a gap does at a record, field by field (R60, R73). -/
theorem PeerRecord.gapTaken_eq (r : PeerRecord) (next : Byte) :
    r.gapTaken next =
      { r with
        expected := some next
        need := r.need ||| r.bounded
        state := if r.need ||| r.bounded = 0 then r.state else .recovering
        askDue := r.askDue || decide (r.need = 0 ∧ r.need ||| r.bounded ≠ 0) } := by
  have hdue : (r.need == 0 && (r.need ||| r.bounded) != 0) = decide (r.need = 0 ∧ r.need ||| r.bounded ≠ 0) := by
    rw [Bool.eq_iff_iff, Bool.and_eq_true, beq_iff_eq, bne_iff_ne, decide_eq_true_iff]
  unfold PeerRecord.gapTaken
  dsimp only
  rw [hdue]

/-! ### Items and the need -/

theorem IndexSet.mem_foldl_erase (items : List Item) (s : IndexSet) (j : Index) :
    IndexSet.mem (items.foldl (fun s i => IndexSet.erase s i.index) s) j = true ↔
      IndexSet.mem s j = true ∧ j ∉ items.map Item.index := by
  induction items generalizing s with
  | nil => simp
  | cons i l ih =>
    rw [List.foldl_cons, ih, IndexSet.mem_erase]
    simp only [Bool.and_eq_true, Bool.not_eq_true', decide_eq_false_iff_not, List.map_cons, List.mem_cons, not_or]
    exact and_assoc.trans (and_congr_right fun _ => and_congr_left fun _ => ⟨fun h e => h e.symm, fun h e => h e.symm⟩)

/-- A record whose need the indexes of items have left (R63). -/
def PeerRecord.shed (items : List Item) (r : PeerRecord) : PeerRecord :=
  { r with need := items.foldl (fun s i => IndexSet.erase s i.index) r.need }

theorem PeerUnit.isLost_map {u v : PeerUnit} {g : PeerRecord → PeerRecord} (h : v.records = u.records.map g)
    (hstation : ∀ r, (g r).station = r.station) (hstate : ∀ r, (g r).state = r.state) (n : Station) :
    v.isLost n = u.isLost n := by
  unfold PeerUnit.isLost
  rw [PeerUnit.find?_map h hstation]
  cases u.find? n with
  | none => rfl
  | some r => simp only [Option.map_some, hstate]

/-- The point table reads of the Peer Table only which stations are LOST, and of the line and the frame unit nothing. -/
theorem State.takeItem_with (s : State) (line : LineInterface) (frame : FrameUnit) {peers : PeerUnit}
    (h : ∀ m, peers.isLost m = s.peers.isLost m) (n : Station) (interest : IndexSet) (c : Carrier) (i : Item) :
    ({ s with line := line, frame := frame, peers := peers } : State).takeItem n interest c i =
      { s.takeItem n interest c i with line := line, frame := frame, peers := peers } := by
  have hreclaim : ({ s with line := line, frame := frame, peers := peers } : State).reclaimEntry? = s.reclaimEntry? := by
    unfold State.reclaimEntry?
    simp only [h]
  cases he : s.points.mirror? ⟨n, i.index⟩ with
  | none =>
    rw [State.takeItem_absent he, State.takeItem_absent (s := { s with line := line, frame := frame, peers := peers }) he]
    split
    · unfold State.createEntry
      rw [hreclaim]
      dsimp only
      split
      · rfl
      · split <;> rfl
    · rfl
  | some e =>
    unfold State.takeItem
    simp only [he]
    split
    · rfl
    · rfl
    next clash _ => cases clash <;> rfl

theorem State.foldl_takeItem_peers (items : List Item) (s : State) (n : Station) (interest : IndexSet) (c : Carrier) :
    (items.foldl (fun u i => u.takeItem n interest c i) s).peers = s.peers := by
  induction items generalizing s with
  | nil => rfl
  | cons i l ih => rw [List.foldl_cons, ih, State.takeItem_peers]

theorem State.foldl_takeItem_with (items : List Item) (s : State) (line : LineInterface) (frame : FrameUnit)
    {peers : PeerUnit} (h : ∀ m, peers.isLost m = s.peers.isLost m) (n : Station) (interest : IndexSet) (c : Carrier) :
    items.foldl (fun u i => u.takeItem n interest c i) { s with line := line, frame := frame, peers := peers } =
      { items.foldl (fun u i => u.takeItem n interest c i) s with line := line, frame := frame, peers := peers } := by
  induction items generalizing s with
  | nil => rfl
  | cons i l ih =>
    rw [List.foldl_cons, List.foldl_cons, State.takeItem_with s line frame h]
    exact ih (s.takeItem n interest c i) (by rw [State.takeItem_peers]; exact h)

/-- Items may be taken before or after the need of the sender's record changes. -/
theorem State.foldl_takeItem_mapPeer (items : List Item) (s : State) (n : Station) (interest : IndexSet) (c : Carrier)
    {g : PeerRecord → PeerRecord} (hstation : ∀ r, (g r).station = r.station) (hstate : ∀ r, (g r).state = r.state) :
    items.foldl (fun u i => u.takeItem n interest c i) (s.mapPeer n g) =
      (items.foldl (fun u i => u.takeItem n interest c i) s).mapPeer n g := by
  have hside : PeerSide s (items.foldl (fun u i => u.takeItem n interest c i) s) :=
    .foldl (fun s i => .takeItem s n interest c i) items s
  have hlost : ∀ m, (s.mapPeer n g).peers.isLost m = s.peers.isLost m :=
    PeerUnit.isLost_map (g := fun r => if r.station = n then g r else r) rfl
      (fun r => by split <;> simp [hstation]) (fun r => by split <;> simp [hstate])
  have hpeers := State.foldl_takeItem_peers items s n interest c
  refine Eq.trans (State.foldl_takeItem_with items s s.line s.frame hlost n interest c) ?_
  generalize items.foldl (fun u i => u.takeItem n interest c i) s = taken at hside hpeers ⊢
  have hmapped : (s.mapPeer n g).peers = (taken.mapPeer n g).peers := by
    unfold State.mapPeer
    rw [State.setPeers_peers, State.setPeers_peers, hpeers]
  rw [← hside.line, ← hside.frame, hmapped]
  rfl

theorem State.mapPeer_mapPeer (s : State) (n : Station) {f g : PeerRecord → PeerRecord}
    (hf : ∀ r, (f r).station = r.station) : (s.mapPeer n f).mapPeer n g = s.mapPeer n (fun r => g (f r)) := by
  have hmap : s.peers.records.map (fun r => if r.station = n then g (f r) else r) =
      (s.peers.records.map (fun r => if r.station = n then f r else r)).map (fun r => if r.station = n then g r else r) := by
    rw [List.map_map]
    refine List.map_congr_left fun r _ => ?_
    by_cases hr : r.station = n <;> simp [hr, hf]
  unfold State.mapPeer
  rw [State.setPeers_setPeers]
  dsimp only [State.setPeers_peers]
  rw [hmap]

/-- Items handed over one by one: all are taken by the point table, and their indexes leave the need (R63). -/
theorem State.foldl_handOver_eq (items : List Item) {s : State} {n : Station} {r : PeerRecord} (c : Carrier)
    (hr : s.peers.find? n = some r) :
    items.foldl (fun u i => u.handOver n c i) s =
      (items.foldl (fun u i => u.takeItem n r.interest c i) s).mapPeer n (PeerRecord.shed items) := by
  induction items generalizing s r with
  | nil =>
    have hid : s.peers.records.map (fun x => if x.station = n then PeerRecord.shed [] x else x) = s.peers.records := by
      refine List.map_id'' (fun x => ?_) _
      split <;> rfl
    rw [List.foldl_nil, List.foldl_nil, State.mapPeer, hid]
    rfl
  | cons i l ih =>
    have hhand : s.handOver n c i = (s.takeItem n r.interest c i).mapPeer n (PeerRecord.shed [i]) := by
      unfold State.handOver
      rw [hr]
      rfl
    have hr' : ((s.takeItem n r.interest c i).mapPeer n (PeerRecord.shed [i])).peers.find? n =
        some (PeerRecord.shed [i] r) :=
      State.find?_mapPeer_self (fun _ => rfl) (by rw [State.takeItem_peers]; exact hr)
    rw [List.foldl_cons, List.foldl_cons, hhand, ih hr',
      State.foldl_takeItem_mapPeer l _ n _ c (g := PeerRecord.shed [i]) (fun _ => rfl) (fun _ => rfl),
      State.mapPeer_mapPeer _ n (f := PeerRecord.shed [i]) (fun _ => rfl)]
    rfl

/-- Step 6 at a known sender. -/
theorem State.itemsStep_eq {s : State} {f : Frame} {r : PeerRecord} (hr : s.peers.find? f.sender = some r) :
    s.itemsStep f =
      (f.body.items.foldl (fun u i => u.takeItem f.sender r.interest f.body.carrier i) s).mapPeer f.sender
        (PeerRecord.shed f.body.items) :=
  State.foldl_handOver_eq f.body.items f.body.carrier hr

/-! ### Recovery -/

theorem State.recoveryStep_keeps {s : State} {n : Station} {r : PeerRecord} (hr : s.peers.find? n = some r)
    (h : ¬(r.state = .recovering ∧ r.need = 0)) : s.recoveryStep n = s := by
  unfold State.recoveryStep
  rw [hr]
  exact if_neg h

theorem State.recoveryStep_completes {s : State} {n : Station} {r : PeerRecord} (hr : s.peers.find? n = some r)
    (h : r.state = .recovering ∧ r.need = 0) : s.recoveryStep n = s.recoveryComplete n := by
  unfold State.recoveryStep
  rw [hr]
  exact if_pos h

end Sys2Proof.Machine

open Sys2Proof Sys2Proof.Machine

/-- Settles O37: a met expectation, a gap, and a BEACON's contents. -/
theorem sequenceCheckTakesGaps : Obligations.SequenceCheckTakesGaps := by
  rintro s n q next r need hr rfl
  refine ⟨fun hmet => State.checkSequence_met next hr hmet, fun e he hq => ?_, fun p set => ?_⟩
  · refine ⟨(s.takeGap n next).peers, State.checkSequence_gap next hr he hq, rfl, rfl, ?_, fun m hm => ?_⟩
    · have hrecord := State.find?_mapPeer_self (s := s.setPoints (s.points.suspectAll n))
        (f := fun r => r.gapTaken next) (fun _ => rfl) hr
      rw [PeerRecord.gapTaken_eq] at hrecord
      exact hrecord
    · exact State.find?_mapPeer_other (s.setPoints (s.points.suspectAll n)) (f := fun r => r.gapTaken next)
        (fun _ => rfl) hm
  · have hentries : ∀ m : MirrorEntry,
        (m.key.station = n ∧ IndexSet.mem (IndexSet.diff r.need set) m.key.index = true) ↔
          (m.key.station = n ∧ IndexSet.mem r.need m.key.index = true ∧ IndexSet.mem set m.key.index = false) := by
      intro m
      rw [IndexSet.mem_diff, Bool.and_eq_true, Bool.not_eq_true']
    unfold State.takeBeacon
    simp only [hr, PointTable.staleThese, hentries]
    rfl

/-- Settles O38: the record's own epoch changes nothing, another one restarts the peer. -/
theorem newEpochRestartsThePeer : Obligations.NewEpochRestartsThePeer := by
  intro s f r hr
  refine ⟨State.checkEpoch_same, fun hepoch => ?_⟩
  refine ⟨_, State.checkEpoch_other hepoch, rfl, rfl, fun m hm => ?_, ?_⟩
  · exact State.find?_mapPeer_other s (PeerRecord.restarted_station f) hm
  · have hrecord := State.find?_mapPeer_self (f := PeerRecord.restarted f) (PeerRecord.restarted_station f) hr
    rw [PeerRecord.restarted, PeerRecord.freshStart_eq] at hrecord
    exact hrecord

/-- Settles O31: the new record is the blank one of the frame's kind; a full table reclaims or overflows. -/
theorem unknownSenderGetsARecordOrOverflows : Obligations.UnknownSenderGetsARecordOrOverflows := by
  rintro s f interest needs record created hnone hsorted rfl rfl hrecord hcreated
  have hfresh : (s.blankRecord f).freshStart f.isHello = record := by
    rw [hrecord, PeerRecord.freshStart_eq]
    by_cases hk : f.body.kind = .hello
    · simp [State.blankRecord, hk]
    · by_cases hi : interestSet s.notices.windows s.control.station f.sender = 0#64
      · simp [State.blankRecord, hk, hi]
      · simp [State.blankRecord, hk, hi]
  have hcreate : ∀ (points : PointTable) (peers : PeerUnit),
      ({ s with points := points, peers := peers } : State).createRecord f =
        created { s with points := points, peers := peers } := by
    intro points peers
    rw [hcreated, ← hfresh]
    rfl
  refine ⟨fun hroom => ?_, fun hfull => ⟨fun n hn => ?_, fun hlist hall => ?_⟩⟩
  · rw [State.classify_new hnone (if_pos hroom), hcreate s.points s.peers]
  · have hreclaim : s.peers.reclaimStation? = some n := by
      rcases hn with hhead | ⟨hlist, hmem, hmin⟩
      · exact PeerUnit.reclaimStation?_head hhead
      · exact PeerUnit.reclaimStation?_lowest hsorted hlist hmem hmin
    have hroom : s.makeRoom = some (s.reclaimRecord n) := by rw [State.makeRoom_full hfull, hreclaim, Option.map_some]
    rw [State.classify_new hnone hroom, State.reclaimRecord_eq, hcreate]
  · have hroom : s.makeRoom = none := by
      rw [State.makeRoom_full hfull, PeerUnit.reclaimStation?_none hlist hall, Option.map_none]
    rw [State.classify_overflow hnone hroom]
    rfl

/-- Settles O32, step by step. -/
theorem classificationTakesItsSteps : Obligations.ClassificationTakesItsSteps := by
  refine ⟨fun s f => ?_, fun s f r hr => State.classify_known hr, ?_, State.judgeAsk_eq, fun s f => ⟨?_, ?_⟩, ?_, ?_⟩
  · unfold State.peerEvent
    cases f.body with
    | ask target _ _ asked => simp only [State.isOwn_iff]
    | update => rfl
    | hello => rfl
    | beacon => rfl
    | resend => rfl
  · rintro s heard sequenced taken f rfl rfl rfl
    unfold State.classifyRecord PeerUnit.needOf
    dsimp only
    cases ((s.hear f).sequenceStep f).peers.find? f.sender with
    | none => rfl
    | some r => rfl
  · unfold State.sequenceStep
    cases f.body <;> rfl
  · unfold State.contentsStep
    cases f.body <;> rfl
  · intro s f r items c hr hbody
    have hitems : f.body.items = items ∧ f.body.carrier = c := by
      rcases hbody with ⟨q, hb, rfl⟩ | ⟨hb, rfl⟩
      · rw [hb]; exact ⟨rfl, rfl⟩
      · rw [hb]; exact ⟨rfl, rfl⟩
    obtain ⟨rfl, rfl⟩ := hitems
    have hpeers := State.foldl_takeItem_peers f.body.items s f.sender r.interest f.body.carrier
    rw [State.itemsStep_eq hr]
    refine ⟨(r.shed f.body.items).need, fun i => IndexSet.mem_foldl_erase _ _ i, rfl, ?_, ?_, ?_, fun m hm => ?_⟩
    · rw [State.mapPeer_lossList, hpeers]
    · rw [State.mapPeer_asking, hpeers]
    · exact State.find?_mapPeer_self (fun _ => rfl) (by rw [hpeers]; exact hr)
    · rw [State.find?_mapPeer_other _ (f := PeerRecord.shed f.body.items) (fun _ => rfl) hm, hpeers]
  · intro s n r hr
    refine ⟨State.recoveryStep_keeps hr, fun hstate hneed => ?_⟩
    rw [State.recoveryStep_completes hr ⟨hstate, hneed⟩, State.recoveryComplete, State.disown_eq]
    rfl
end

section
/-! PROOFS. The items of a frame at FRAME_END: the way of an UPDATE in sequence or a RESEND from the line to the point table
and the sender's record (O33). -/

namespace Sys2Proof.Machine

open Sys2Proof

/-! ### FRAME_END -/

/-- The station as it judges a frame that has passed its validation: the buffer empty, the frame counted as good. -/
def State.counted (s : State) : State :=
  { s with
    line := { s.line with early := .waiting }
    frame := { s.frame with assembly := none, good := Tally.rise s.frame.good } }

/-- Past the arbitration field the own-frame mark stands as it was, or is that of the frame in flight (R124). -/
theorem State.cellsTaken_own_wireBits {s : State} {a : Assembly} {cells : List Level} {w : WireFrame}
    (hw : a.bits ++ cells.map sampledBit = wireBits w) :
    (s.cellsTaken a cells).own = if a.bits.length < 11 then s.arbiter.inFlight.isSome else a.own := by
  have hlen : a.bits.length + cells.length = 32 + 8 * w.body.length := by
    rw [← wireBits_length, ← hw, List.length_append, List.length_map]
  rw [State.cellsTaken_eq]
  exact if_congr (and_iff_left (by omega)) rfl rfl

/-- FRAME_END of a good frame from another station dispatches it (R121, R126). -/
theorem execFrameEnd_good {s : State} {a : Assembly} {w : WireFrame} {f : Frame} {cells : List Level}
    (ha : s.frame.assembly = some a) (hw : a.bits ++ cells.map sampledBit = wireBits w) (he : frameEnds w = true)
    (hown : (if a.bits.length < 11 then s.arbiter.inFlight.isSome else a.own) = false)
    (hcheck : checkPasses w = true) (hvalid : validate w = some f) (hsender : s.control.station ≠ some f.sender) :
    execFrameEnd cells s = .next (s.counted.dispatchGood f) := by
  rw [execFrameEnd_finished ha hw he, State.cellsTaken_own_wireBits hw, hown]
  have hother : s.counted.isOwn f.sender = false := by
    rw [Bool.eq_false_iff, Ne, State.isOwn_iff]
    exact hsender
  have hjudged : s.finishAssembly.judgeFrame w =
      if s.counted.isOwn f.sender then s.counted.duplicateDetected else s.counted.dispatchGood f := by
    unfold State.judgeFrame
    rw [if_pos hcheck, hvalid]
    rfl
  rw [hjudged, hother]
  rfl

theorem PeerSide.control_state {s t : State} (h : PeerSide s t) : t.control.state = s.control.state :=
  (congrArg Control.state h.control :)

theorem PeerSide.control_timing {s t : State} (h : PeerSide s t) : t.control.timing = s.control.timing :=
  (congrArg Control.timing h.control :)

theorem PeerSide.control_clock {s t : State} (h : PeerSide s t) : t.control.clock = s.control.clock :=
  (congrArg Control.clock h.control :)

/-- Outside LISTENING(LINE_TROUBLE) an UPDATE or a RESEND is the peer unit's alone (R126). -/
theorem State.dispatchGood_items {s : State} {f : Frame} (hstate : s.control.state ≠ .listening .lineTrouble)
    (hkind : f.body.kind = .update ∨ f.body.kind = .resend) : s.dispatchGood f = s.classify f := by
  have hexit : s.atExit = false := by simp [State.atExit, hstate]
  have hpeer : s.peerEvent f = s.classify f := by
    unfold State.peerEvent
    split
    next hb => rw [hb] at hkind; simp [FrameBody.kind] at hkind
    all_goals rfl
  have hpublication : ∀ u : State, u.publicationEvent f = u := by
    intro u
    unfold State.publicationEvent
    split
    next hb => rw [hb] at hkind; simp [FrameBody.kind] at hkind
    all_goals rfl
  have hcontrol : (s.classify f).controlEvent f = s.classify f := by
    have hhello : f.isHello = false := by
      rcases hkind with hk | hk <;> simp [Frame.isHello, hk]
    have hkept : (s.classify f).control.state ≠ .listening .lineTrouble := by
      rw [(PeerSide.classify s f).control_state]
      exact hstate
    unfold State.controlEvent State.goodFrameReport
    simp only [hhello, Bool.false_eq_true, if_false, hkept]
  unfold State.dispatchGood
  simp only [hexit, Bool.false_eq_true, if_false]
  rw [hpeer, hcontrol, hpublication]

/-! ### One record changed, the others kept -/

/-- A Peer Table that differs from another at one station's record alone, and keeps the marker. -/
structure PeerUnit.DiffersAt (u v : PeerUnit) (n : Station) (r : PeerRecord) : Prop where
  self : v.find? n = some r
  others : ∀ m, m ≠ n → v.find? m = u.find? m
  asking : v.asking = u.asking

theorem PeerUnit.DiffersAt.mapPeer {u : PeerUnit} {s : State} {n : Station} {r : PeerRecord}
    (h : u.DiffersAt s.peers n r) {f : PeerRecord → PeerRecord} (hf : ∀ r, (f r).station = r.station) :
    u.DiffersAt (s.mapPeer n f).peers n (f r) :=
  ⟨State.find?_mapPeer_self hf h.self, fun m hm => (State.find?_mapPeer_other s hf hm).trans (h.others m hm), h.asking⟩

theorem PeerUnit.DiffersAt.isLost {u v : PeerUnit} {n : Station} {r x : PeerRecord} (h : u.DiffersAt v n x)
    (hr : u.find? n = some r) (hstate : x.state = r.state) (m : Station) : v.isLost m = u.isLost m := by
  unfold PeerUnit.isLost
  by_cases hm : m = n
  · rw [hm, h.self, hr]
    simp only [hstate]
  · rw [h.others m hm]

/-- Hearing a present sender restarts its silence timer and changes no other record (R59). -/
theorem State.hear_present {s : State} {f : Frame} {r : PeerRecord} (hr : s.peers.find? f.sender = some r)
    (hpresent : r.isAway = false) :
    ∃ peers, s.hear f = { s with peers := peers } ∧
      s.peers.DiffersAt peers f.sender (r.heard f s.control.timing) := by
  have hself : s.peers.DiffersAt s.peers f.sender r := ⟨hr, fun _ _ => rfl, rfl⟩
  have hmapped := hself.mapPeer (f := fun r => (if r.isAway then r.returned else r).heard f s.control.timing)
    (fun r => by split <;> rfl)
  simp only [hpresent, Bool.false_eq_true, if_false] at hmapped
  refine ⟨(s.hear f).peers, ?_, ?_⟩
  · unfold State.hear
    rw [hr, Option.map_some, hpresent]
    rfl
  · have hrecords : (s.hear f).peers.records =
        (s.mapPeer f.sender (fun r => (if r.isAway then r.returned else r).heard f s.control.timing)).peers.records ∧
        (s.hear f).peers.asking = s.peers.asking := by
      unfold State.hear
      dsimp only
      split
      · exact ⟨rfl, rfl⟩
      · exact ⟨rfl, rfl⟩
    exact ⟨(PeerUnit.find?_congr hrecords.1 _).trans hmapped.self,
      fun m hm => (PeerUnit.find?_congr hrecords.1 m).trans (hmapped.others m hm), hrecords.2⟩

/-! ### Met by others -/

theorem IndexSet.diff_ne_zero_iff {s t : IndexSet} (h : ∀ i, IndexSet.mem t i = true → IndexSet.mem s i = true) :
    IndexSet.diff s t ≠ 0 ↔ t ≠ s := by
  refine not_congr ⟨fun hd => IndexSet.ext fun i => ?_, fun hts => ?_⟩
  · have hi := IndexSet.mem_diff s t i
    rw [hd, show (0 : IndexSet) = 0#64 from rfl, IndexSet.mem_zero] at hi
    cases hs : IndexSet.mem s i with
    | false =>
      cases ht : IndexSet.mem t i with
      | false => rfl
      | true => rw [h i ht] at hs; cases hs
    | true => simpa [hs] using hi.symm
  · rw [hts]
    exact BitVec.and_not_self s

/-- When a meeting by others ends the classification (R80). -/
def State.meetsAt (s : State) (n : Station) (r : PeerRecord) : Bool :=
  r.askDue && IndexSet.subset r.need r.covered && !s.peers.asks n

theorem State.testMet_eq {s : State} {n : Station} {r : PeerRecord} (hr : s.peers.find? n = some r) :
    s.testMet n = if s.meetsAt n r then s.mapPeer n (fun r => r.met s.recallStart) else s := by
  unfold State.testMet
  rw [hr]
  rfl

theorem State.metStep_eq {s : State} {n : Station} {r : PeerRecord} (hr : s.peers.find? n = some r) (before : IndexSet) :
    s.metStep n before =
      if IndexSet.diff before r.need ≠ 0 ∧ s.meetsAt n r = true then s.mapPeer n (fun r => r.met s.recallStart)
      else s := by
  unfold State.metStep
  rw [State.testMet_eq hr, PeerUnit.needOf, hr]
  simp only [Option.map_some, Option.getD_some, bne_iff_ne]
  rw [ite_and]

theorem PeerUnit.asks_eq (u : PeerUnit) (n : Station) :
    (!u.asks n) = u.asking.all (fun x => decide (x.target ≠ n)) := by
  unfold PeerUnit.asks
  cases u.asking with
  | none => rfl
  | some a => by_cases ha : a.target = n <;> simp [ha]

theorem State.recallStart_eq (s : State) :
    s.recallStart =
      (match s.control.state with
       | .listening _ => .held (16000 * s.control.timing.recallWait.ms)
       | _ => .running (16000 * s.control.timing.recallWait.ms)) := by
  unfold State.recallStart
  cases s.control.state <;> rfl

/-! ### From the record to the end of the classification -/

/-- A frame with items whose expectation is met: after hearing and sequence the state differs from the one before at the
sender's record alone, which has the new expectation and a full silence timer. -/
theorem State.sequenced_items {s : State} {f : Frame} {r : PeerRecord} {expected : Option Byte}
    (hr : s.peers.find? f.sender = some r) (hpresent : r.isAway = false)
    (hbody : (∃ q items, f.body = .update q items ∧ (r.expected = none ∨ r.expected = some q) ∧ expected = some (q + 1)) ∨
      (∃ items, f.body = .resend items ∧ expected = r.expected)) :
    ∃ peers, (((s.hear f).sequenceStep f).contentsStep f) = { s with peers := peers } ∧
      (s.hear f).sequenceStep f = { s with peers := peers } ∧
      s.peers.DiffersAt peers f.sender { r.heard f s.control.timing with expected := expected } := by
  obtain ⟨heard, hheard, hdiffers⟩ := State.hear_present hr hpresent
  rw [hheard]
  rcases hbody with ⟨q, items, hb, hmet, rfl⟩ | ⟨items, hb, rfl⟩
  · have hsequenced : State.sequenceStep { s with peers := heard } f =
        State.mapPeer { s with peers := heard } f.sender (fun r => { r with expected := some (q + 1) }) := by
      unfold State.sequenceStep
      rw [hb]
      exact State.checkSequence_met (s := { s with peers := heard }) _ hdiffers.self hmet
    refine ⟨_, ?_, hsequenced, hdiffers.mapPeer (s := { s with peers := heard }) (fun _ => rfl)⟩
    rw [hsequenced]
    unfold State.contentsStep
    rw [hb]
    rfl
  · have hsequenced : State.sequenceStep { s with peers := heard } f = { s with peers := heard } := by
      unfold State.sequenceStep
      rw [hb]
    refine ⟨heard, ?_, hsequenced, hdiffers⟩
    rw [hsequenced]
    unfold State.contentsStep
    rw [hb]

/-- The record as it stands after a frame's items. -/
def PeerRecord.itemsTaken (r : PeerRecord) (f : Frame) (t : Timing) (expected : Option Byte) : PeerRecord :=
  PeerRecord.shed f.body.items { r.heard f t with expected := expected }

/-- After the items the state is that of the items alone but for the Peer Table, which differs at the sender's record. -/
theorem State.taken_items {s : State} {f : Frame} {r : PeerRecord} {peers : PeerUnit} {expected : Option Byte}
    (line : LineInterface) (frame : FrameUnit) (hr : s.peers.find? f.sender = some r)
    (h : s.peers.DiffersAt peers f.sender { r.heard f s.control.timing with expected := expected }) :
    ∃ taken, State.itemsStep { s with line := line, frame := frame, peers := peers } f =
        { f.body.items.foldl (fun u i => u.takeItem f.sender r.interest f.body.carrier i) s with
          line := line, frame := frame, peers := taken } ∧
      s.peers.DiffersAt taken f.sender (r.itemsTaken f s.control.timing expected) := by
  have hlost := h.isLost hr rfl
  have hitems := State.itemsStep_eq (s := { s with line := line, frame := frame, peers := peers }) h.self
  rw [State.foldl_takeItem_with f.body.items s line frame hlost] at hitems
  exact ⟨_, hitems, h.mapPeer (s := { f.body.items.foldl (fun u i => u.takeItem f.sender r.interest f.body.carrier i) s with
    line := line, frame := frame, peers := peers }) (fun _ => rfl)⟩

theorem PeerRecord.itemsTaken_eq {r : PeerRecord} {f : Frame} {t : Timing} (expected : Option Byte) {need : IndexSet}
    {silence : SilenceTimer} (hperiod : f.body.period = none)
    (hneed : ∀ i, IndexSet.mem need i = true ↔ IndexSet.mem r.need i = true ∧ i ∉ f.body.items.map Item.index)
    (hsilence : silence = .running .silence (16000 * (3 * (match r.period with
      | some p => 2 * p.toNat
      | none => t.interval.ms * t.multiple.times)))) :
    r.itemsTaken f t expected = { r with expected := expected, silence := silence, need := need } := by
  have hshed : f.body.items.foldl (fun s i => IndexSet.erase s i.index) r.need = need :=
    IndexSet.ext fun i => Bool.eq_iff_iff.2 ((IndexSet.mem_foldl_erase _ _ i).trans (hneed i).symm)
  have hfull : .running .silence (r.silenceFull f t) = silence := by
    rw [hsilence, PeerRecord.silenceFull, hperiod]
    rfl
  unfold PeerRecord.itemsTaken PeerRecord.shed PeerRecord.heard
  dsimp only
  rw [hshed, hfull]

/-- The classification of a frame with items whose expectation is met, up to the end of the recovery (R60, R63 to R65). -/
theorem State.classify_items {s : State} {f : Frame} {r : PeerRecord} {expected : Option Byte} (line : LineInterface)
    (frame : FrameUnit) (hr : s.peers.find? f.sender = some r) (hepoch : r.epoch = f.epoch) (hpresent : r.isAway = false)
    (hbody : (∃ q items, f.body = .update q items ∧ (r.expected = none ∨ r.expected = some q) ∧ expected = some (q + 1)) ∨
      (∃ items, f.body = .resend items ∧ expected = r.expected)) :
    ∃ (u : State) (peers : PeerUnit),
      u = { f.body.items.foldl (fun u i => u.takeItem f.sender r.interest f.body.carrier i) s with
        line := line, frame := frame, peers := peers } ∧
      s.peers.DiffersAt peers f.sender (r.itemsTaken f s.control.timing expected) ∧
      State.classify { s with line := line, frame := frame } f =
        ((u.recoveryStep f.sender).metStep f.sender r.need).judgeAsk := by
  obtain ⟨heard, hcontents, hsequenced, hheard⟩ :=
    State.sequenced_items (s := { s with line := line, frame := frame }) hr hpresent hbody
  obtain ⟨taken, hitems, htaken⟩ := State.taken_items line frame hr hheard
  refine ⟨_, taken, rfl, htaken, ?_⟩
  have hneed : heard.needOf f.sender = r.need := by
    unfold PeerUnit.needOf
    rw [hheard.self]
    rfl
  rw [State.classify_known (s := { s with line := line, frame := frame }) hr, State.checkEpoch_same hepoch]
  unfold State.classifyRecord
  dsimp only
  rw [hcontents, hsequenced, hitems, hneed]

/-- A recovery that the items complete: the record is LIVE, and RECALL_DONE follows the items' notices (R64). -/
theorem State.metStep_of_recovered {u : State} {n : Station} {x : PeerRecord} (before : IndexSet)
    (hx : u.peers.find? n = some x) (hdone : x.state = .recovering ∧ x.need = 0) :
    (u.recoveryStep n).metStep n before = u.recoveryComplete n := by
  have hfound : (u.recoveryComplete n).peers.find? n =
      some { x.clearRecall with state := .live, beaconWanted := false } :=
    State.find?_mapPeer_self (f := fun r => { r.clearRecall with state := .live, beaconWanted := false })
      (fun _ => rfl) hx
  rw [State.recoveryStep_completes hx hdone, State.metStep_eq hfound, if_neg]
  rintro ⟨_, hmeets⟩
  cases hmeets

/-- When the others' asks meet what the items have left of a need (R65, R80). -/
theorem State.meets_iff {u : State} {n : Station} {x : PeerRecord} {before : IndexSet} {asking : Option AskFlight}
    (hasking : u.peers.asking = asking)
    (hsub : ∀ i, IndexSet.mem x.need i = true → IndexSet.mem before i = true) :
    (IndexSet.diff before x.need ≠ 0 ∧ u.meetsAt n x = true) ↔
      (x.askDue && decide (x.need ≠ before) && decide (x.need &&& ~~~x.covered = 0) &&
        asking.all (fun a => decide (a.target ≠ n))) = true := by
  unfold State.meetsAt IndexSet.subset
  rw [PeerUnit.asks_eq, hasking, IndexSet.diff_ne_zero_iff hsub]
  simp only [Bool.and_eq_true, beq_iff_eq, decide_eq_true_iff, IndexSet.diff]
  tauto

end Sys2Proof.Machine

open Sys2Proof Sys2Proof.Machine

/-- Settles O33: hearing and sequence touch the sender's record alone, so the items reach the point table as from the
state before; then the recovery completes, the need is met by others, or the record keeps its recall. -/
theorem itemsOfAFrameReachThePointTable : Obligations.ItemsOfAFrameReachThePointTable := by
  rintro w f cells s taken a r items c expected need silence ha hw he hown hcheck hvalid hsender hstate hr hepoch hlive
    hbody hneed rfl hsilence
  obtain ⟨rfl, rfl, hperiod, hkind, hexpected⟩ : f.body.items = items ∧ f.body.carrier = c ∧
      f.body.period = none ∧ (f.body.kind = .update ∨ f.body.kind = .resend) ∧
      ((∃ q items, f.body = .update q items ∧ (r.expected = none ∨ r.expected = some q) ∧ expected = some (q + 1)) ∨
        (∃ items, f.body = .resend items ∧ expected = r.expected)) := by
    rcases hbody with ⟨q, hb, rfl, hmet, hnext⟩ | ⟨hb, rfl, hnext⟩
    · rw [hb]
      exact ⟨rfl, rfl, rfl, .inl rfl, .inl ⟨q, items, rfl, hmet, hnext⟩⟩
    · rw [hb]
      exact ⟨rfl, rfl, rfl, .inr rfl, .inr ⟨items, rfl, hnext⟩⟩
  have hpresent : r.isAway = false := by
    rcases hlive with hl | hl <;> simp [PeerRecord.isAway, hl]
  have hside : PeerSide s (f.body.items.foldl (fun u i => u.takeItem f.sender r.interest f.body.carrier i) s) :=
    .foldl (fun s i => .takeItem s _ _ _ i) _ _
  obtain ⟨u, peers, hu, hdiffers, hclassify⟩ :=
    State.classify_items s.counted.line s.counted.frame hr hepoch hpresent hexpected
  rw [PeerRecord.itemsTaken_eq expected hperiod hneed hsilence] at hdiffers
  generalize f.body.items.foldl (fun u i => u.takeItem f.sender r.interest f.body.carrier i) s = taken at hu hside ⊢
  have hexec : exec (.frameEnd cells) s = .next ((u.recoveryStep f.sender).metStep f.sender r.need).judgeAsk := by
    rw [← hclassify]
    refine (execFrameEnd_good ha hw he hown hcheck hvalid hsender).trans ?_
    exact congrArg _ (State.dispatchGood_items (s := s.counted) hstate hkind)
  obtain rfl : u.peers = peers := by rw [hu]
  have hself := hdiffers.self
  have hothers : ∀ (g : PeerRecord → PeerRecord), (∀ r, (g r).station = r.station) →
      ∀ m, m ≠ f.sender → (u.mapPeer f.sender g).peers.find? m = s.peers.find? m :=
    fun g hg m hm => (State.find?_mapPeer_other u hg hm).trans (hdiffers.others m hm)
  by_cases hdone : r.state = .recovering ∧ need = 0
  · rw [State.metStep_of_recovered r.need hself hdone] at hexec
    refine ⟨_, hexec, by rw [hu]; rfl, by rw [hu]; rfl, by rw [hu]; exact hside.publication, by rw [hu]; exact hside.port,
      hothers (fun r => { r.clearRecall with state := .live, beaconWanted := false }) (fun _ => rfl),
      fun _ _ => ⟨?_, ?_⟩, fun hnot => absurd hdone hnot⟩
    · rw [hu, ← hside.control_clock]
      rfl
    · exact State.find?_mapPeer_self
        (f := fun r => { r.clearRecall with state := .live, beaconWanted := false }) (fun _ => rfl) hself
  · rw [State.recoveryStep_keeps hself hdone, State.metStep_eq hself,
      if_congr (State.meets_iff hdiffers.asking (fun i hi => ((hneed i).1 hi).1)) rfl rfl] at hexec
    refine ⟨_, hexec, ?_⟩
    split
    next hmet =>
      refine ⟨by rw [hu]; rfl, by rw [hu]; rfl, by rw [hu]; exact hside.publication, by rw [hu]; exact hside.port,
        hothers (fun r => r.met u.recallStart) (fun _ => rfl), fun hst h0 => absurd ⟨hst, h0⟩ hdone, ?_⟩
      rintro _ met rfl
      refine ⟨by rw [hu]; rfl, ?_⟩
      have hstart := State.recallStart_eq u
      rw [show u.control = taken.control by rw [hu], hside.control_state, hside.control_timing] at hstart
      refine (State.find?_mapPeer_self (f := fun r => r.met u.recallStart) (fun _ => rfl) hself).trans ?_
      rw [hstart, hmet]
      rfl
    next hmet =>
      refine ⟨by rw [hu]; rfl, by rw [hu]; rfl, by rw [hu]; exact hside.publication, by rw [hu]; exact hside.port,
        hdiffers.others, fun hst h0 => absurd ⟨hst, h0⟩ hdone, ?_⟩
      rintro _ met rfl
      refine ⟨by rw [hu]; rfl, ?_⟩
      rw [Bool.eq_false_iff.2 hmet]
      exact hself
end

section
/-! PROOFS. Reads of points and peers, RESTART, and the timers of publication and recall (O15, O21, O51, O53). -/

namespace Sys2Proof.Machine

open Sys2Proof

/-! ### Argument bytes -/

theorem stationArg_inside {b : Byte} (h : 1 ≤ b.toNat ∧ b.toNat ≤ 62) : stationArg b = some (b.setWidth 6) :=
  if_pos (by simpa using h)

theorem stationArg_outside {b : Byte} (h : ¬(1 ≤ b.toNat ∧ b.toNat ≤ 62)) : stationArg b = none :=
  if_neg (by simpa using h)

theorem indexArg_inside {b : Byte} (h : b.toNat ≤ 63) : indexArg b = some (b.setWidth 6) := if_pos h

theorem indexArg_outside {b : Byte} (h : ¬b.toNat ≤ 63) : indexArg b = none := if_neg h

/-- A command with a fixed number of argument bytes misses some until that number is reached. -/
theorem argsMissing_of_count {t : PointTable} {c : PortCommand} {args : List Byte}
    (h : ∀ l, argCount t c l = some args.length) : ∀ k < args.length, ArgsMissing t c (args.take k) := by
  intro k hk n hn
  rw [h] at hn
  cases hn
  rw [List.length_take]
  omega

/-- A whole command with a fixed number of argument bytes, from the fall of LSEL. -/
theorem exec_fixed {s : State} (c : PortCommand) (args : List Byte) (hs : s.port = Port.opened)
    (hc : c.classOf.opens s.control.state = true) (h : ∀ l, argCount s.points c l = some args.length) :
    exec (c.toInstr (portBits (c.code :: args))) s = .next (State.answer c.code args (s.perform args c)) :=
  exec_taken rfl hs hc (argsMissing_of_count h) (h args)

/-! ### READ_POINT and READ_PEER -/

theorem Publication.waiting_iff (p : Publication) (i : Index) :
    p.waiting i = true ↔ i ∈ p.publishSet ∨ i ∈ p.flightItems.map Item.index := by
  unfold Publication.waiting Publication.flightItems
  cases p.flight with
  | none => simp
  | some f => simp

theorem PointTable.own?_index {t : PointTable} {i : Index} {e : OwnEntry} (h : t.own? i = some e) : e.index = i :=
  BitVec.eq_of_toNat_eq (tableFind_mem h).2

/-- The response bytes of an own entry (R5, R21). -/
theorem OwnEntry.bytes_eq (p : Publication) (e : OwnEntry) :
    e.bytes p =
      [if e.published = none then 3
        else if e.index ∈ p.publishSet ∨ e.index ∈ p.flightItems.map Item.index then 4 else 5,
       BitVec.ofNat 8 e.size.bytes, (match e.published with | some p => p.version | none => 0)] ++
      e.current ++ [0, 0] := by
  have hstatus : ownStatusByte p e = if e.published = none then 3
      else if e.index ∈ p.publishSet ∨ e.index ∈ p.flightItems.map Item.index then 4 else 5 := by
    unfold ownStatusByte
    exact if_congr Option.isNone_iff_eq_none rfl (if_congr (Publication.waiting_iff p e.index) rfl rfl)
  unfold OwnEntry.bytes
  rw [hstatus]
  cases e.published <;> rfl

/-- The response bytes of a mirrored entry (R18, R21). -/
theorem MirrorEntry.bytes_eq (clock : Word16) (e : MirrorEntry) :
    e.bytes clock =
      [(match e.state with | .valid => 0 | .suspect => 1 | .stale => 2), BitVec.ofNat 8 e.size.bytes, e.version] ++
      e.value ++
      [(if e.ageSaturated then 0xFFFF else clock - e.time).extractLsb' 8 8,
       (if e.ageSaturated then 0xFFFF else clock - e.time).extractLsb' 0 8] := by
  unfold MirrorEntry.bytes
  cases e.state <;> rfl

/-- The response bytes of a record (R70). -/
theorem PeerRecord.bytes_eq (r : PeerRecord) (t : Timing) :
    r.bytes t =
      [(match r.state with | .live => 0 | .recovering => 1 | .silent => 2 | .lost => 3), r.epoch,
       (match r.expected with | some e => e | none => 0), (match r.expected with | some _ => 0 | none => 1)] ++
      IndexSet.toBytes r.need ++
      [BitVec.ofNat 8 r.attempts,
       (match r.period with
        | some p => p
        | none => BitVec.ofNat 8 (t.interval.ms * t.multiple.times / 2))] := by
  unfold PeerRecord.bytes PeerRecord.periodUnits
  cases r.state <;> cases r.expected <;> cases r.period <;> rfl

theorem readPoint_inside {s : State} {n i : Byte} (hn : 1 ≤ n.toNat ∧ n.toNat ≤ 62) (hi : i.toNat ≤ 63) :
    readPoint [n, i] s =
      (match s.pointBytes ⟨n.setWidth 6, i.setWidth 6⟩ with
       | some bytes => ⟨.ok, bytes⟩
       | none => .refusal .notFound, s) := by
  unfold readPoint
  simp only [stationArg_inside hn, indexArg_inside hi]
  cases s.pointBytes ⟨n.setWidth 6, i.setWidth 6⟩ <;> rfl

theorem readPoint_outside {s : State} {n i : Byte} (h : ¬(1 ≤ n.toNat ∧ n.toNat ≤ 62 ∧ i.toNat ≤ 63)) :
    readPoint [n, i] s = (.refusal .badArgument, s) := by
  unfold readPoint
  by_cases hn : 1 ≤ n.toNat ∧ n.toNat ≤ 62
  · have hi : ¬i.toNat ≤ 63 := fun hi => h ⟨hn.1, hn.2, hi⟩
    simp only [stationArg_inside hn, indexArg_outside hi]
  · simp only [stationArg_outside hn]

theorem readPeer_inside {s : State} {n : Byte} (hn : 1 ≤ n.toNat ∧ n.toNat ≤ 62) :
    readPeer [n] s =
      (match s.peers.find? (n.setWidth 6) with
       | some r => ⟨.ok, r.bytes s.control.timing⟩
       | none => .refusal .notFound, s) := by
  unfold readPeer
  simp only [stationArg_inside hn]
  cases s.peers.find? (n.setWidth 6) <;> rfl

theorem readPeer_outside {s : State} {n : Byte} (hn : ¬(1 ≤ n.toNat ∧ n.toNat ≤ 62)) :
    readPeer [n] s = (.refusal .badArgument, s) := by
  unfold readPeer
  simp only [stationArg_outside hn]

/-! ### RESTART -/

/-- A frame under assembly is kept through a RESTART unless it is marked own (R131, R146). -/
theorem FrameUnit.restart_eq (u : FrameUnit) :
    u.restart =
      ⟨(match u.assembly with | some a => if a.own = true then none else some a | none => none), 0, 0, 0, 0⟩ := by
  have hkept : u.assembly.filter (fun a => !a.own) =
      (match u.assembly with | some a => if a.own = true then none else some a | none => none) := by
    cases u.assembly with
    | none => rfl
    | some a => cases ha : a.own <;> simp [Option.filter, ha]
  rw [← hkept]
  rfl

theorem PointTable.restart_declared (t : PointTable) : t.restart.declared = t.own.map OwnEntry.index := by
  unfold PointTable.declared PointTable.restart
  rw [List.map_map]
  rfl

/-- A warm restart, every block at once (R175). -/
theorem State.restartAll_eq {s : State} {n : Station} (hn : s.control.station = some n) :
    s.restartAll =
      { s with
        control := { s.restartControl with state := .joining, helloDone := false }
        line := { s.line with drive := .idle }
        frame := s.frame.restart
        arbiter := { Arbiter.reset with wants := Wants.lowered.put .hello true }
        points := s.points.restart
        publication := Publication.fresh (s.points.own.map OwnEntry.index)
        peers := .reset
        notices := { s.notices.restart with queue := [⟨.state n .joining, s.control.clock⟩] } } := by
  have hnumber : s.ownNumber = n := by
    unfold State.ownNumber
    rw [hn, Option.getD_some]
  rw [← hnumber, ← PointTable.restart_declared]
  rfl

/-! ### Timers -/

theorem Timer.isDue_iff (t : Timer) : t.isDue = true ↔ t = .running 0 := by
  unfold Timer.isDue
  split
  · simp
  next h => exact ⟨nofun, fun ht => absurd ht h⟩

theorem State.publishExpiry_eq (s : State) :
    s.publishExpiry =
      if s.publication.publishSet ≠ [] ∧ s.publication.round = .closed then
        { s with
          publication := { s.publication with round := .opened 0 }
          arbiter := { s.arbiter with wants := { s.arbiter.wants with routine := true } } }
      else s := by
  have hcases : (s.publication.publishSet.isEmpty || s.publication.round.isOpen) = true ↔
      ¬(s.publication.publishSet ≠ [] ∧ s.publication.round = .closed) := by
    cases s.publication.publishSet <;> cases s.publication.round <;> simp [Round.isOpen]
  unfold State.publishExpiry
  rw [if_congr hcases rfl rfl, ite_not]
  rfl

theorem MirrorEntry.watchAge_eq (clock : Word16) (e : MirrorEntry) :
    e.watchAge clock = { e with ageSaturated := e.ageSaturated || decide (clock - e.time = 65535) } := by
  unfold MirrorEntry.watchAge
  by_cases h : clock - e.time = 65535
  · rw [if_pos (by exact h), decide_eq_true h, Bool.or_true]
  · rw [if_neg (by exact h), decide_eq_false h, Bool.or_false]

/-- A timer expiry of a known record. -/
theorem execRecallWaitExpiry_eq {s : State} {n : Station} {r : PeerRecord} (hr : s.peers.find? n = some r) :
    execRecallWaitExpiry n s = .next (if r.recallWait = .running 0 then s.recallWaitExpires r else s) := by
  unfold execRecallWaitExpiry
  rw [hr]
  exact congrArg _ (if_congr (Timer.isDue_iff _) rfl rfl)

end Sys2Proof.Machine

open Sys2Proof Sys2Proof.Machine

/-- Settles O15, by the owner's reply at arguments in range and out of range. -/
theorem pointsAndPeersAreRead : Obligations.PointsAndPeersAreRead := by
  refine ⟨fun s n i hs => ?_, fun s n hs => ?_⟩
  · have hexec : exec (.readPoint (portBits [0x02, n, i])) s =
        .next (State.answer 0x02 [n, i] (readPoint [n, i] s)) :=
      exec_fixed .readPoint [n, i] hs rfl (fun _ => rfl)
    rw [hexec]
    refine ⟨fun ⟨hlow, hhigh, hi⟩ => ?_, fun h => ?_⟩
    · rw [readPoint_inside ⟨hlow, hhigh⟩ hi]
      unfold State.pointBytes
      by_cases hown : s.control.station = some (n.setWidth 6)
      · rw [if_pos ((State.isOwn_iff s _).2 hown), if_pos hown]
        cases he : s.points.own? (i.setWidth 6) with
        | none => rfl
        | some e =>
          rw [Option.map_some, OwnEntry.bytes_eq, PointTable.own?_index he]
          rfl
      · rw [if_neg (fun h => hown ((State.isOwn_iff s _).1 h)), if_neg hown]
        cases he : s.points.mirror? ⟨n.setWidth 6, i.setWidth 6⟩ with
        | none => rfl
        | some e =>
          rw [Option.map_some, MirrorEntry.bytes_eq]
          rfl
    · rw [readPoint_outside h]
      rfl
  · have hexec : exec (.readPeer (portBits [0x04, n])) s = .next (State.answer 0x04 [n] (readPeer [n] s)) :=
      exec_fixed .readPeer [n] hs rfl (fun _ => rfl)
    rw [hexec]
    refine ⟨fun hn => ?_, fun hn => ?_⟩
    · rw [readPeer_inside hn]
      cases s.peers.find? (n.setWidth 6) with
      | none => rfl
      | some r =>
        dsimp only
        rw [PeerRecord.bytes_eq]
        rfl
    · rw [readPeer_outside hn]
      rfl

/-- Settles O21: RESTART has no argument bytes, and every block's restart values are those stated. -/
theorem restartBeginsANewEpoch : Obligations.RestartBeginsANewEpoch := by
  intro s hs hstate n hn
  have hopen : PortCommand.restart.classOf.opens s.control.state = true := bne_iff_ne.2 hstate
  have hexec : exec (.restart (portBits [0x25])) s = .next (State.answer 0x25 [] (.ok, s.restartAll)) :=
    exec_fixed .restart [] hs hopen (fun _ => rfl)
  rw [hexec, State.restartAll_eq hn, FrameUnit.restart_eq]
  rfl

/-- Settles O51, timer by timer. -/
theorem publicationTimersAndClock : Obligations.PublicationTimersAndClock := by
  refine ⟨fun s => ⟨fun hdue => ?_, fun hdue => ?_, fun hdue => ?_, fun hnot => ?_, fun hnot => ?_, fun hnot => ?_⟩,
    fun s => ?_⟩
  · refine congrArg _ ((if_pos ((Timer.isDue_iff _).2 hdue)).trans ?_)
    rw [State.publishExpiry_eq]
    rfl
  · exact congrArg _ (if_pos ((Timer.isDue_iff _).2 hdue))
  · exact congrArg _ (if_pos ((Timer.isDue_iff _).2 hdue))
  · exact congrArg _ (if_neg fun hdue => hnot ((Timer.isDue_iff _).1 hdue))
  · exact congrArg _ (if_neg fun hdue => hnot ((Timer.isDue_iff _).1 hdue))
  · exact congrArg _ (if_neg fun hdue => hnot ((Timer.isDue_iff _).1 hdue))
  · have hwatch : MirrorEntry.watchAge (s.control.clock + 1) = fun e =>
        { e with ageSaturated := e.ageSaturated || decide (s.control.clock + 1 - e.time = 65535) } :=
      funext (MirrorEntry.watchAge_eq _)
    show execMillisecondClockAdvance s = _
    unfold execMillisecondClockAdvance
    dsimp only
    rw [hwatch]
    rfl

/-- Settles O53, by the attempts at an expiry that is due. -/
theorem recallWaitAsksAgainThenFails : Obligations.RecallWaitAsksAgainThenFails := by
  intro s n r hr
  have hexec := execRecallWaitExpiry_eq hr
  obtain rfl := PeerUnit.find?_station hr
  refine ⟨fun hnot => hexec.trans (congrArg _ (if_neg hnot)), fun hdue hfew => ?_, fun hdue hmany => ?_⟩
  · rw [if_pos hdue, State.recallWaitExpires, if_pos hfew, State.judgeAsk_eq] at hexec
    have hself := State.find?_mapPeer_self (f := fun r => { r with askDue := true, recallWait := .stopped })
      (fun _ => rfl) hr
    have hany : (s.mapPeer r.station (fun r => { r with askDue := true, recallWait := .stopped })).peers.records.any
        (fun r => r.askDue) = true := List.any_eq_true.2 ⟨_, (tableFind_mem hself).1, rfl⟩
    rw [hany, Bool.true_and] at hexec
    exact ⟨_, hexec, rfl, rfl, fun m hm => State.find?_mapPeer_other s
      (f := fun r => { r with askDue := true, recallWait := .stopped }) (fun _ => rfl) hm, hself⟩
  · rw [if_pos hdue, State.recallWaitExpires, if_neg (Nat.not_lt.2 hmany), State.judgeAsk_eq] at hexec
    exact ⟨_, _, hexec, rfl, rfl, rfl, fun m hm => State.find?_mapPeer_other s
      (f := fun r => { r.clearRecall with state := .live, beaconWanted := false }) (fun _ => rfl) hm,
      State.find?_mapPeer_self (f := fun r => { r.clearRecall with state := .live, beaconWanted := false })
      (fun _ => rfl) hr⟩
end

section
/-! PROOFS. Transactions: everything that bits of a local-port transaction can do in any state, with the argument bytes
that the command taken has been given. -/

namespace Sys2Proof.Machine

open Sys2Proof

/-- What bits may come to: they move the port and read free values alone; or one command's owner acts too, on as many
argument bytes as the command needs. A command whose bytes are being collected stays in its class. -/
inductive State.Clocked (s : State) : State → Prop where
  | moved (p : Port) (n : Nat) (hcollect : s.collectingWf → ({ s with port := p } : State).collectingWf) :
      s.Clocked { s with port := p, freeCount := n }
  | taken (c : PortCommand) (args : List Byte) (p : Port) (n : Nat)
      (hopen : s.collectingWf → c.classOf.opens s.control.state = true)
      (hcount : argCount s.points c args = some args.length) (hp : p.hasTaken = true) :
      s.Clocked { (s.perform args c).2 with port := p, freeCount := n }

/-- A command fixes the number of its argument bytes by the first of them, so that as many bytes fix it too. -/
theorem argCount_take {t : PointTable} {c : PortCommand} {args : List Byte} {n : Nat}
    (h : argCount t c args = some n) (hn : n ≤ args.length) : argCount t c (args.take n) = some (args.take n).length := by
  rw [List.length_take_of_le hn]
  cases c with
  | declarePoint =>
    match args, h with
    | index :: size :: rest, h =>
      obtain rfl : 3 + (sizeArg size).bytes = n := Option.some.inj h
      rw [show 3 + (sizeArg size).bytes = (1 + (sizeArg size).bytes) + 1 + 1 by omega, List.take_succ_cons,
        List.take_succ_cons]
      exact congrArg some (by omega)
  | writePoint =>
    match args, h with
    | index :: rest, h =>
      obtain rfl : writeCount t index = n := Option.some.inj h
      have hpos : ∃ k, writeCount t index = k + 1 := by
        unfold writeCount
        split
        · exact ⟨_, Nat.add_comm _ _⟩
        · exact ⟨0, rfl⟩
      obtain ⟨k, hk⟩ := hpos
      rw [hk, List.take_succ_cons, ← hk]
      rfl
  | _ => exact h

/-- What the collection of bytes comes to in a state whose class is open to the command. -/
theorem State.collect_outcome {s : State} {c : PortCommand} (args : List Byte)
    (hc : s.collectingWf → c.classOf.opens s.control.state = true) :
    (∃ p, s.collect c args = s.setPort p ∧ (s.collectingWf → (s.setPort p).collectingWf)) ∨
      ∃ d given, (s.collectingWf → d.classOf.opens s.control.state = true) ∧
        argCount s.points d given = some given.length ∧
        s.collect c args = State.answer d.code given (s.perform given d) := by
  rcases State.collect_cases s c args with ⟨needed, h⟩ | ⟨n, hcount, hlen, h⟩
  · refine .inl ⟨_, h, fun hw _ d hd => ?_⟩
    have hcode : (Port.collecting c.code args needed).code.bind PortCommand.ofCode = some c := PortCommand.ofCode_code c
    rw [State.setPort_port, hcode] at hd
    cases hd
    exact hc hw
  · exact .inr ⟨c, _, hc, argCount_take hcount hlen, h⟩

/-- One bit before the take. -/
theorem State.clockBit_outcome {s : State} (b : Bool) (ht : s.port.hasTaken = false) :
    (∃ p, s.clockBit b = s.setPort p ∧ (s.collectingWf → (s.setPort p).collectingWf)) ∨
      ∃ c args, (s.collectingWf → c.classOf.opens s.control.state = true) ∧
        argCount s.points c args = some args.length ∧
        s.clockBit b = State.answer c.code args (s.perform args c) := by
  by_cases hclosed : s.port.phase = .closed
  · rw [State.clockBit, if_pos hclosed]
    exact .inl ⟨s.port, rfl, id⟩
  have hphase : s.port.phase = .code ∨ s.port.phase = .arguments :=
    (Port.hasTaken_eq_false.1 ht).resolve_left hclosed
  have hbit : s.clockBit b = (s.setPort s.port.drive).lclkRise b := by
    unfold State.clockBit
    rw [if_neg hclosed, if_neg, State.lclkFall_eq]
    · rintro ⟨hwaiting, _⟩
      simp [hwaiting] at hphase
    · rcases hphase with hp | hp <;> simp [Port.atRemoval, hp]
  rw [hbit, State.lclkRise]
  split
  · exact .inl ⟨_, rfl, id⟩
  generalize wordOfBits 8 ((s.setPort s.port.drive).port.bits ++ [b]) = byte
  unfold State.takeByte
  rcases hphase with hp | hp
  · simp only [State.setPort_port, Port.drive, hp, State.takeCode_setPort]
    unfold State.takeCode
    split
    · exact .inl ⟨_, rfl, fun _ => nofun⟩
    · split
      next hopen => exact State.collect_outcome [] (fun _ => hopen)
      · exact .inl ⟨_, rfl, fun _ => nofun⟩
  · simp only [State.setPort_port, Port.drive, hp]
    unfold State.takeArgument
    simp only [State.setPort_port]
    split
    next c hcode =>
      rw [State.setPort_setPort, State.collect_setPort]
      exact State.collect_outcome _ (fun hw => hw hp c hcode)
    · exact .inl ⟨_, rfl, fun hw _ => hw hp⟩

theorem Port.not_arguments_of_hasTaken {p : Port} (h : p.hasTaken = true) : p.phase ≠ .arguments := by
  intro hp
  simp [Port.hasTaken, Port.replying, hp] at h

/-- Bits of a transaction. -/
theorem State.clock_clocked (s : State) (l : List Bool) : s.Clocked (s.clock l) := by
  induction l generalizing s with
  | nil => exact .moved s.port s.freeCount id
  | cons b l ih =>
    cases ht : s.port.hasTaken with
    | true =>
      obtain ⟨p, n, h, hp, _⟩ := State.clock_hasTaken (b :: l) ht
      rw [h]
      exact .moved p n (fun _ harg => absurd harg (Port.not_arguments_of_hasTaken hp))
    | false =>
      rw [State.clock_cons]
      rcases State.clockBit_outcome b ht with ⟨p, h, hcollect⟩ | ⟨c, args, hopen, hcount, h⟩
      · rw [h]
        generalize hu : (s.setPort p).clock l = u
        have hrest : (s.setPort p).Clocked u := hu ▸ ih _
        cases hrest with
        | moved q m hcollect' => exact .moved q m (fun hw => hcollect' (hcollect hw))
        | taken c args q m hopen hcount hq =>
          rw [State.perform_setPort]
          exact .taken c args q m (fun hw => hopen (hcollect hw)) hcount hq
      · obtain ⟨q, m, h', hq, _⟩ := State.clock_hasTaken (s := s.clockBit b) l (by rw [h]; rfl)
        rw [h', h]
        exact .taken c args q m hopen hcount hq

theorem State.transact_clocked (s : State) (c : Option PortCommand) (ldi : List Bool) : s.Clocked (s.transact c ldi) := by
  unfold State.transact
  split
  · exact State.clock_clocked s ldi
  · exact .moved s.port s.freeCount id

end Sys2Proof.Machine
end

section
/-! PROOFS. The publication unit and its wants: each operation of files 02 and 04, every block at once. -/

namespace Sys2Proof.Machine

open Sys2Proof

/-! ### Own entries and their urgency -/

/-- The own entry of an index after a change of entries that keeps each index. -/
theorem PointTable.own?_map {t u : PointTable} {g : OwnEntry → OwnEntry} (h : u.own = t.own.map g)
    (hg : ∀ e, (g e).index = e.index) (i : Index) : u.own? i = (t.own? i).map g := by
  unfold PointTable.own?
  rw [h, tableFind_map (fun e => by rw [hg])]

theorem PointTable.urgent_map {t u : PointTable} {g : OwnEntry → OwnEntry} (h : u.own = t.own.map g)
    (hg : ∀ e, (g e).index = e.index) (hu : ∀ e, (g e).urgent = e.urgent) : u.urgent = t.urgent := by
  funext i
  unfold PointTable.urgent
  rw [PointTable.own?_map h hg]
  cases t.own? i with
  | none => rfl
  | some e => exact hu e

theorem PointTable.urgent_of_own? {t : PointTable} {i : Index} {e : OwnEntry} (h : t.own? i = some e) :
    t.urgent i = e.urgent := by
  unfold PointTable.urgent
  rw [h]

/-- An own entry with another current value (R29). -/
def OwnEntry.written (i : Index) (value : List Byte) (e : OwnEntry) : OwnEntry :=
  if e.index = i then { e with current := value } else e

theorem OwnEntry.written_index (i : Index) (value : List Byte) (e : OwnEntry) : (e.written i value).index = e.index := by
  unfold OwnEntry.written
  split <;> rfl

theorem OwnEntry.written_urgent (i : Index) (value : List Byte) (e : OwnEntry) : (e.written i value).urgent = e.urgent := by
  unfold OwnEntry.written
  split <;> rfl

/-- An own entry once an UPDATE with these items has completed (R38). -/
def OwnEntry.publishedBy (items : List Item) (e : OwnEntry) : OwnEntry :=
  match items.find? (fun i => i.index == e.index) with
  | some i => { e with published := some ⟨i.value, i.version⟩ }
  | none => e

theorem OwnEntry.publishedBy_of_mem {items : List Item} {e : OwnEntry} {i : Item} (hnodup : (items.map Item.index).Nodup)
    (hi : i ∈ items) (he : i.index = e.index) : e.publishedBy items = { e with published := some ⟨i.value, i.version⟩ } := by
  have hfind : items.find? (fun i => i.index == e.index) = some i := by
    induction items with
    | nil => cases hi
    | cons j l ih =>
      obtain ⟨hj, hl⟩ := List.nodup_cons.1 hnodup
      rcases List.mem_cons.1 hi with rfl | hi
      · exact List.find?_cons_of_pos (beq_iff_eq.2 he)
      · have hne : j.index ≠ e.index := fun h => hj (List.mem_map.2 ⟨i, hi, he.trans h.symm⟩)
        rw [List.find?_cons, beq_eq_false_iff_ne.2 hne]
        exact ih hl hi
  unfold OwnEntry.publishedBy
  rw [hfind]

theorem OwnEntry.publishedBy_of_not_mem {items : List Item} {e : OwnEntry} (h : e.index ∉ items.map Item.index) :
    e.publishedBy items = e := by
  have hfind : items.find? (fun i => i.index == e.index) = none :=
    List.find?_eq_none.2 fun i hi hbeq => h (List.mem_map.2 ⟨i, hi, beq_iff_eq.1 hbeq⟩)
  unfold OwnEntry.publishedBy
  rw [hfind]

theorem OwnEntry.publishedBy_index (items : List Item) (e : OwnEntry) : (e.publishedBy items).index = e.index := by
  unfold OwnEntry.publishedBy
  split <;> rfl

theorem OwnEntry.publishedBy_urgent (items : List Item) (e : OwnEntry) : (e.publishedBy items).urgent = e.urgent := by
  unfold OwnEntry.publishedBy
  split <;> rfl

theorem OwnEntry.publishedBy_size (items : List Item) (e : OwnEntry) : (e.publishedBy items).size = e.size := by
  unfold OwnEntry.publishedBy
  split <;> rfl

theorem OwnEntry.publishedBy_current (items : List Item) (e : OwnEntry) : (e.publishedBy items).current = e.current := by
  unfold OwnEntry.publishedBy
  split <;> rfl

/-- Items that name each index once are published all at once. -/
theorem PointTable.publish_eq {items : List Item} (hnodup : (items.map Item.index).Nodup) (t : PointTable) :
    t.publish items = { t with own := t.own.map (OwnEntry.publishedBy items) } := by
  induction items generalizing t with
  | nil =>
    show t = { t with own := t.own.map (fun e => e) }
    rw [List.map_id']
  | cons i l ih =>
    obtain ⟨hi, hl⟩ := List.nodup_cons.1 hnodup
    have hstep : ∀ e : OwnEntry,
        (if e.index = i.index then { e with published := some ⟨i.value, i.version⟩ } else e).publishedBy l =
          e.publishedBy (i :: l) := by
      intro e
      by_cases he : e.index = i.index
      · rw [if_pos he, OwnEntry.publishedBy_of_not_mem (by exact fun h => hi (he ▸ h)),
          OwnEntry.publishedBy_of_mem hnodup List.mem_cons_self he.symm]
      · have hfind : (i :: l).find? (fun i => i.index == e.index) = l.find? (fun i => i.index == e.index) :=
          List.find?_cons_of_neg (fun h => he (beq_iff_eq.1 h).symm)
        rw [if_neg he]
        unfold OwnEntry.publishedBy
        rw [hfind]
    refine (ih hl (t.mapOwn i.index _)).trans ?_
    show { t with own := (t.own.map _).map (OwnEntry.publishedBy l) } = _
    rw [List.map_map]
    congr 1
    exact List.map_congr_left fun e _ => hstep e

/-! ### Contents of frames -/

/-- A frame takes items from the head (R34, R35, R92). -/
theorem exists_fitting_append (limit used : Nat) (l : List Item) : ∃ rest, fitting limit used l ++ rest = l := by
  induction l generalizing used with
  | nil => exact ⟨[], rfl⟩
  | cons i l ih =>
    unfold fitting
    split
    · obtain ⟨rest, hrest⟩ := ih (used + i.size.itemBytes)
      exact ⟨rest, congrArg (i :: ·) hrest⟩
    · exact ⟨i :: l, rfl⟩

theorem fitting_sublist (limit used : Nat) (l : List Item) : (fitting limit used l).Sublist l := by
  obtain ⟨rest, hrest⟩ := exists_fitting_append limit used l
  conv_rhs => rw [← hrest]
  exact List.sublist_append_left _ _

theorem fitting_index_nodup {limit : Nat} {items : List Item} (h : (items.map Item.index).Nodup) :
    ((fitting limit 0 items).map Item.index).Nodup :=
  h.sublist ((fitting_sublist limit 0 items).map Item.index)

theorem Size.itemBytes_le (z : Size) : z.itemBytes ≤ 10 := by cases z <;> decide

/-- The first item always fits, so nothing is taken only from nothing. -/
theorem fitting_eq_nil {limit : Nat} (h : 10 ≤ limit) {l : List Item} : fitting limit 0 l = [] ↔ l = [] := by
  cases l with
  | nil => exact Iff.rfl
  | cons i rest =>
    have hfits : 0 + i.size.itemBytes ≤ limit := by
      have := i.size.itemBytes_le
      omega
    rw [fitting, if_pos hfits]
    simp

theorem State.mem_snapshots {s : State} {l : List Index} {i : Item} (h : i ∈ s.snapshots l) :
    ∃ e ∈ s.points.own, e.index ∈ l ∧ i = e.snapshot := by
  obtain ⟨j, hj, hi⟩ := List.mem_filterMap.1 h
  obtain ⟨e, he, rfl⟩ := Option.map_eq_some_iff.1 hi
  exact ⟨e, (tableFind_mem he).1, by rw [PointTable.own?_index he]; exact hj, rfl⟩

theorem PointTable.own?_of_declared {t : PointTable} {i : Index} (h : i ∈ t.declared) : ∃ e, t.own? i = some e := by
  obtain ⟨e, he, rfl⟩ := List.mem_map.1 h
  cases hfind : t.own? e.index with
  | none => exact absurd rfl (tableFind_none.1 hfind e he)
  | some x => exact ⟨x, rfl⟩

/-- Declared indexes each give one item, in their order. -/
theorem State.snapshots_index {s : State} {l : List Index} (h : ∀ i ∈ l, i ∈ s.points.declared) :
    (s.snapshots l).map Item.index = l := by
  induction l with
  | nil => rfl
  | cons i rest ih =>
    obtain ⟨e, he⟩ := PointTable.own?_of_declared (h i List.mem_cons_self)
    have hcons : s.snapshots (i :: rest) = e.snapshot :: s.snapshots rest :=
      List.filterMap_cons_some (f := fun i => (s.points.own? i).map OwnEntry.snapshot) (by rw [he]; rfl)
    rw [hcons, List.map_cons, ih fun j hj => h j (List.mem_cons_of_mem _ hj)]
    exact congrArg (· :: rest) (PointTable.own?_index he)

/-! ### Starts -/

/-- The wants after the start of an own UPDATE that leaves a set (R32, R33). -/
def State.wantsStarted (s : State) (set : List Index) : Wants :=
  { s.arbiter.wants with
    routine := s.publication.round.isOpen && !set.isEmpty
    alarm := s.arbiter.wants.alarm && set.any s.points.urgent }

theorem State.startUpdate_none {s : State} {alarm : Bool} {items : List Item} :
    s.startUpdate alarm items = none ↔ items = [] := by
  unfold State.startUpdate
  cases items <;> simp

theorem State.startUpdate_some {s : State} {alarm : Bool} {items : List Item} (h : items ≠ []) :
    s.startUpdate alarm items =
      some (s.updateFrame alarm items,
        { s with
          publication := { s.publication with
            publishSet := s.publication.publishSet.filter (fun i => !(items.map Item.index).contains i)
            flight := some ⟨alarm, s.publication.sequence, items⟩ }
          arbiter := { s.arbiter with
            wants := s.wantsStarted (s.publication.publishSet.filter (fun i => !(items.map Item.index).contains i)) } }) := by
  unfold State.startUpdate
  rw [if_neg (fun he => h (List.isEmpty_iff.1 he))]
  dsimp only
  congr 2
  unfold State.lowerAlarmIfNone State.wantsStarted
  split
  next hwaits =>
    have hany : (s.publication.publishSet.filter (fun i => !(items.map Item.index).contains i)).any s.points.urgent = true :=
      hwaits
    rw [hany, Bool.and_true]
    rfl
  next hwaits =>
    have hany : (s.publication.publishSet.filter (fun i => !(items.map Item.index).contains i)).any s.points.urgent = false :=
      Bool.eq_false_iff.2 hwaits
    rw [hany, Bool.and_false]
    rfl

theorem State.startResend_none {s : State} : s.startResend = none ↔ s.resendItems = [] := by
  unfold State.startResend
  cases h : s.resendItems <;> simp

theorem State.startResend_some {s : State} (h : s.resendItems ≠ []) :
    s.startResend =
      some (⟨false, s.ownNumber, s.control.epoch, .resend s.resendItems⟩,
        { s with
          publication := { s.publication with
            replay := IndexSet.diff s.publication.replay (IndexSet.ofList (s.resendItems.map Item.index))
            resendFlight := s.resendItems.map Item.index }
          arbiter := { s.arbiter with wants := { s.arbiter.wants with resend := false } } }) := by
  have hempty : (s.resendItems.map Item.index).isEmpty = false := by simpa using h
  unfold State.startResend
  dsimp only
  rw [if_neg (fun he => h (List.isEmpty_iff.1 he)), State.judgeResend, State.setPublication_publication]
  dsimp only
  rw [hempty, Bool.and_false]
  rfl

/-! ### Outcomes -/

/-- A completed UPDATE, every block at once (R38). -/
theorem State.completeUpdate_eq {s : State} {f : UpdateFlight} (hf : s.publication.flight = some f)
    (hnodup : (f.items.map Item.index).Nodup) :
    s.completeUpdate =
      { s with
        points := { s.points with own := s.points.own.map (OwnEntry.publishedBy f.items) }
        publication := { s.publication with
          replay := IndexSet.diff s.publication.replay (IndexSet.ofList (f.items.map Item.index))
          published := s.publication.published ||| IndexSet.ofList (f.items.map Item.index)
          sequence := s.publication.sequence + 1
          beaconTimer := s.control.timing.beaconFull
          flight := none
          round := s.publication.round.afterCompletion f.alarm s.publication.publishSet.isEmpty }
        arbiter := { s.arbiter with
          wants := { s.arbiter.wants with
            resend := IndexSet.diff s.publication.replay (IndexSet.ofList (f.items.map Item.index)) != 0 &&
              s.publication.resendFlight.isEmpty
            routine := (s.publication.round.afterCompletion f.alarm s.publication.publishSet.isEmpty).isOpen &&
              !s.publication.publishSet.isEmpty
            alarm := s.urgentWaiting } } } := by
  have hurgent : (s.points.publish f.items).urgent = s.points.urgent := by
    rw [PointTable.publish_eq hnodup]
    exact PointTable.urgent_map rfl (OwnEntry.publishedBy_index _) (OwnEntry.publishedBy_urgent _)
  unfold State.urgentWaiting
  rw [← hurgent, ← PointTable.publish_eq hnodup, State.completeUpdate, hf]
  rfl

/-- An UPDATE whose frame does not arrive gives its indexes back to the head (R39). -/
theorem State.returnUpdate_eq {s : State} {f : UpdateFlight} (hf : s.publication.flight = some f) :
    s.returnUpdate =
      { s with
        publication := { s.publication with
          publishSet := f.items.map Item.index ++
            s.publication.publishSet.filter (fun i => !(f.items.map Item.index).contains i)
          flight := none }
        arbiter := { s.arbiter with
          wants := { s.arbiter.wants with
            routine := s.publication.round.isOpen &&
              !(f.items.map Item.index ++
                s.publication.publishSet.filter (fun i => !(f.items.map Item.index).contains i)).isEmpty
            alarm := (f.items.map Item.index ++
                s.publication.publishSet.filter (fun i => !(f.items.map Item.index).contains i)).any s.points.urgent } } } := by
  rw [State.returnUpdate, hf]
  rfl

theorem State.completeResend_eq (s : State) :
    s.completeResend =
      { s with
        publication := { s.publication with resendFlight := [] }
        arbiter := { s.arbiter with wants := { s.arbiter.wants with resend := s.publication.replay != 0 } } } := by
  rw [State.completeResend, State.judgeResend, State.setPublication_publication]
  simp only [List.isEmpty_nil, Bool.and_true]
  rfl

theorem State.returnResend_eq (s : State) :
    s.returnResend =
      { s with
        publication := { s.publication with
          replay := s.publication.replay ||| IndexSet.ofList s.publication.resendFlight
          resendFlight := [] }
        arbiter := { s.arbiter with
          wants := { s.arbiter.wants with
            resend := (s.publication.replay ||| IndexSet.ofList s.publication.resendFlight) != 0 } } } := by
  rw [State.returnResend, State.judgeResend, State.setPublication_publication]
  simp only [List.isEmpty_nil, Bool.and_true]
  rfl

/-! ### Writes and requests -/

theorem mem_appendIndex {l : List Index} {i j : Index} : j ∈ appendIndex l i ↔ j ∈ l ∨ j = i := by
  unfold appendIndex
  split
  next h =>
    refine ⟨.inl, ?_⟩
    rintro (hj | rfl)
    · exact hj
    · exact List.contains_iff_mem.1 h
  · simp

/-- A write, every block at once (R29, R32, R33). -/
theorem State.writeOwn_eq {s : State} {i : Index} {e : OwnEntry} (he : s.points.own? i = some e) (value : List Byte) :
    s.writeOwn i value =
      { s with
        points := { s.points with own := s.points.own.map (OwnEntry.written i value) }
        publication := { s.publication with publishSet := appendIndex s.publication.publishSet i }
        arbiter := { s.arbiter with
          wants := { s.arbiter.wants with
            alarm := s.arbiter.wants.alarm || e.urgent
            routine := s.publication.round.isOpen } } } := by
  have hmap : s.points.mapOwn i (fun e => { e with current := value }) =
      { s.points with own := s.points.own.map (OwnEntry.written i value) } := rfl
  have hurgent : ({ s.points with own := s.points.own.map (OwnEntry.written i value) } : PointTable).urgent i = e.urgent := by
    rw [PointTable.urgent_map rfl (OwnEntry.written_index i value) (OwnEntry.written_urgent i value),
      PointTable.urgent_of_own? he]
  have hset : (appendIndex s.publication.publishSet i).isEmpty = false :=
    List.isEmpty_eq_false_iff.2 (List.ne_nil_of_mem (mem_appendIndex.2 (.inr rfl)))
  unfold State.writeOwn
  dsimp only
  rw [hmap, State.setPublication_points, State.setPoints_points, hurgent]
  unfold State.judgeRoutine
  cases e.urgent with
  | true =>
    simp only [if_true, State.setWant_publication, State.setPublication_publication, State.setPoints_publication, hset,
      Bool.not_false, Bool.and_true, Bool.or_true]
    rfl
  | false =>
    simp only [Bool.false_eq_true, if_false, State.setPublication_publication, State.setPoints_publication, hset,
      Bool.not_false, Bool.and_true, Bool.or_false]
    rfl

/-- An ASK to this station, every block at once (R45, R89, R91). -/
theorem State.takeRequest_eq (s : State) (wanted : Bool) (believed : Byte) (asked : IndexSet) {replay : IndexSet}
    (hreplay : replay = s.publication.replay |||
      IndexSet.diff (asked &&& s.publication.published) (IndexSet.ofList s.publication.resendFlight)) :
    s.takeRequest wanted believed asked =
      { s with
        publication := { s.publication with replay := replay }
        arbiter := { s.arbiter with
          wants := { s.arbiter.wants with
            resend := replay != 0 && s.publication.resendFlight.isEmpty
            beacon := s.arbiter.wants.beacon || (wanted || believed != s.control.epoch) } } } := by
  subst hreplay
  unfold State.takeRequest
  dsimp only
  split
  next h =>
    rw [show (wanted || believed != s.control.epoch) = true from h, Bool.or_true]
    rfl
  next h =>
    rw [show (wanted || believed != s.control.epoch) = false from Bool.eq_false_iff.2 h, Bool.or_false]
    rfl

end Sys2Proof.Machine
end

section
/-! PROOFS. The peer unit: what its events do to the recall-wait timers, to the ASK in flight marker and to the wants. -/

namespace Sys2Proof.Machine

open Sys2Proof

/-- Every record's recall-wait timer satisfies `P`, which holds of a stopped timer; an own ASK is in flight as `asking`
says; and the wants but that of ASK are those of `wants`. -/
structure State.WaitsHeld (P : Timer → Prop) (asking : Bool) (wants : Wants) (s : State) : Prop where
  stopped : P .stopped
  waits : ∀ r ∈ s.peers.records, P r.recallWait
  marker : s.peers.asking.isSome = asking
  others : { s.arbiter.wants with ask := wants.ask } = wants

/-- Timer changes of a record that `P` allows. -/
def PeerRecord.KeepsWait (P : Timer → Prop) (f : PeerRecord → PeerRecord) : Prop :=
  ∀ r, P r.recallWait → P (f r).recallWait

theorem PeerRecord.keepsWait_same {P : Timer → Prop} {f : PeerRecord → PeerRecord}
    (h : ∀ r, (f r).recallWait = r.recallWait) : KeepsWait P f := fun r hr => by rw [h]; exact hr

theorem PeerRecord.keepsWait_const {P : Timer → Prop} {x : Timer} (hx : P x) {f : PeerRecord → PeerRecord}
    (h : ∀ r, (f r).recallWait = x) : KeepsWait P f := fun r _ => by rw [h]; exact hx

theorem PeerRecord.freshStart_recallWait (r : PeerRecord) (hello : Bool) :
    (r.freshStart hello).recallWait = r.recallWait := by
  unfold PeerRecord.freshStart
  split
  · rfl
  · split <;> rfl

/-- The point table takes an item without touching the wants. -/
theorem State.takeItem_arbiter (s : State) (n : Station) (interest : IndexSet) (c : Carrier) (i : Item) :
    (s.takeItem n interest c i).arbiter = s.arbiter := by
  have hcreate : ∀ k : Key, (s.createEntry k i).arbiter = s.arbiter := by
    intro k
    unfold State.createEntry
    split
    · rfl
    · split <;> rfl
  have happly : ∀ (k : Key) (clash : Bool), (s.applyItem k i clash).arbiter = s.arbiter := fun _ clash => by
    cases clash <;> rfl
  unfold State.takeItem
  dsimp only
  split
  · split
    · exact hcreate _
    · rfl
  · split
    · rfl
    · rfl
    · exact happly _ _

theorem PeerSide.recallStart {s t : State} (h : PeerSide s t) : t.recallStart = s.recallStart := by
  unfold State.recallStart
  rw [h.control_state, h.control_timing]

namespace State.WaitsHeld

variable {P : Timer → Prop} {asking : Bool} {wants : Wants} {s t : State}

theorem congr (h : s.WaitsHeld P asking wants)
    (hrecords : t.peers.records = s.peers.records) (hasking : t.peers.asking = s.peers.asking)
    (hwants : { t.arbiter.wants with ask := wants.ask } = { s.arbiter.wants with ask := wants.ask }) :
    t.WaitsHeld P asking wants :=
  ⟨h.stopped, by rw [hrecords]; exact h.waits, by rw [hasking]; exact h.marker,
    hwants.trans h.others⟩

theorem mapRecords (h : s.WaitsHeld P asking wants) {f : PeerRecord → PeerRecord} (hf : PeerRecord.KeepsWait P f)
    (hrecords : t.peers.records = s.peers.records.map f)
    (hasking : t.peers.asking = s.peers.asking) (hwants : t.arbiter.wants = s.arbiter.wants) :
    t.WaitsHeld P asking wants := by
  refine ⟨h.stopped, fun r hr => ?_, by rw [hasking]; exact h.marker,
    by rw [hwants]; exact h.others⟩
  rw [hrecords] at hr
  obtain ⟨x, hx, rfl⟩ := List.mem_map.1 hr
  exact hf x (h.waits x hx)

theorem mapPeer (h : s.WaitsHeld P asking wants) (n : Station) {f : PeerRecord → PeerRecord}
    (hf : PeerRecord.KeepsWait P f) : (s.mapPeer n f).WaitsHeld P asking wants := by
  refine h.mapRecords (f := fun r => if r.station = n then f r else r) (fun r hr => ?_) rfl rfl rfl
  dsimp only
  split
  · exact hf r hr
  · exact hr

/-- A change of records that leaves their recall-wait timers alone. -/
theorem mapPeer_same (h : s.WaitsHeld P asking wants) (n : Station) {f : PeerRecord → PeerRecord}
    (hf : ∀ r, (f r).recallWait = r.recallWait) : (s.mapPeer n f).WaitsHeld P asking wants :=
  h.mapPeer n (PeerRecord.keepsWait_same hf)

theorem disown (h : s.WaitsHeld P asking wants) (n : Station) : (s.disown n).WaitsHeld P asking wants :=
  ⟨h.stopped, h.waits, by rw [State.disown_asking, Option.isSome_map]; exact h.marker, h.others⟩

theorem setLossList (h : s.WaitsHeld P asking wants) (l : List Station) :
    (s.setPeers { s.peers with lossList := l }).WaitsHeld P asking wants := h.congr rfl rfl rfl

theorem judgeAsk (h : s.WaitsHeld P asking wants) : s.judgeAsk.WaitsHeld P asking wants := h.congr rfl rfl rfl

/-! ### The classification of a frame -/

theorem handOver (h : s.WaitsHeld P asking wants) (n : Station) (c : Carrier) (i : Item) :
    (s.handOver n c i).WaitsHeld P asking wants := by
  have htaken : ∀ interest, (s.takeItem n interest c i).WaitsHeld P asking wants := fun interest =>
    h.congr (by rw [State.takeItem_peers])
      (by rw [State.takeItem_peers]) (by rw [State.takeItem_arbiter])
  exact (htaken _).mapPeer_same n (fun _ => rfl)

theorem itemsStep (h : s.WaitsHeld P asking wants) (f : Frame) : (s.itemsStep f).WaitsHeld P asking wants := by
  unfold State.itemsStep
  induction f.body.items generalizing s with
  | nil => exact h
  | cons i l ih => exact ih (h.handOver _ _ i)

theorem sequenceStep (h : s.WaitsHeld P asking wants) (f : Frame) : (s.sequenceStep f).WaitsHeld P asking wants := by
  have hcheck : ∀ carried next : Byte, (s.checkSequence f.sender carried next).WaitsHeld P asking wants := by
    intro carried next
    have hexpect := h.mapPeer_same f.sender (f := fun r => { r with expected := some next }) (fun _ => rfl)
    unfold State.checkSequence
    split
    · exact hexpect
    · split
      · exact hexpect
      · exact (h.mapPeer_same f.sender (f := fun r => r.gapTaken next) (fun _ => rfl)).congr rfl rfl rfl
  unfold State.sequenceStep
  split
  · exact hcheck _ _
  · exact hcheck _ _
  all_goals exact h

theorem contentsStep (h : s.WaitsHeld P asking wants) (f : Frame) : (s.contentsStep f).WaitsHeld P asking wants := by
  unfold State.contentsStep
  split
  · unfold State.takeBeacon
    split
    · exact h
    · have hpoints : ∀ x, (s.setPoints x).WaitsHeld P asking wants := fun _ => h.congr rfl rfl rfl
      exact (hpoints _).mapPeer_same f.sender (fun _ => rfl)
  · exact h.mapPeer_same f.sender (fun _ => rfl)
  all_goals exact h

theorem hear (h : s.WaitsHeld P asking wants) (f : Frame) : (s.hear f).WaitsHeld P asking wants := by
  have hheard := h.mapPeer_same f.sender
    (f := fun r => (if r.isAway then r.returned else r).heard f s.control.timing) (fun r => by split <;> rfl)
  unfold State.hear
  dsimp only
  split
  · exact hheard.congr rfl rfl rfl
  · exact hheard.congr rfl rfl rfl

theorem recoveryComplete (h : s.WaitsHeld P asking wants) (n : Station) :
    (s.recoveryComplete n).WaitsHeld P asking wants :=
  ((h.mapPeer n (PeerRecord.keepsWait_const h.stopped fun _ => rfl)).disown n).congr rfl rfl rfl

theorem testMet (h : s.WaitsHeld P asking wants) (hstart : P s.recallStart) (n : Station) : (s.testMet n).WaitsHeld P asking wants := by
  unfold State.testMet
  split
  · exact h
  · split
    · exact h.mapPeer n (PeerRecord.keepsWait_const hstart fun _ => rfl)
    · exact h

theorem classifyRecord (h : s.WaitsHeld P asking wants) (hstart : P s.recallStart) (f : Frame) :
    (s.classifyRecord f).WaitsHeld P asking wants := by
  have htaken := (((h.hear f).sequenceStep f).contentsStep f).itemsStep f
  have hrecovered : (((((s.hear f).sequenceStep f).contentsStep f).itemsStep f).recoveryStep f.sender).WaitsHeld
      P asking wants := by
    unfold State.recoveryStep
    split
    · split
      · exact htaken.recoveryComplete _
      · exact htaken
    · exact htaken
  have hside := ((((PeerSide.hear s f).trans (.sequenceStep _ f)).trans (.contentsStep _ f)).trans
    (.itemsStep _ f)).trans (.recoveryStep _ f.sender)
  unfold State.classifyRecord State.metStep
  dsimp only
  split
  · exact hrecovered.testMet (by rw [hside.recallStart]; exact hstart) _
  · exact hrecovered

theorem checkEpoch (h : s.WaitsHeld P asking wants) (r : PeerRecord) (f : Frame) :
    (s.checkEpoch r f).WaitsHeld P asking wants := by
  unfold State.checkEpoch
  split
  · exact h
  · have hpoints : ∀ x, (s.setPoints x).WaitsHeld P asking wants := fun _ => h.congr rfl rfl rfl
    have hrestarted := (hpoints (s.points.staleAll f.sender)).mapPeer f.sender
      (f := fun r => { r.clearRecall with epoch := f.epoch, published := none }.freshStart f.isHello)
      (PeerRecord.keepsWait_const h.stopped fun r => PeerRecord.freshStart_recallWait _ _)
    exact ((hrestarted.setLossList _).disown f.sender).congr rfl rfl rfl

theorem makeRoom (h : s.WaitsHeld P asking wants) (hroom : s.makeRoom = some t) : t.WaitsHeld P asking wants := by
  unfold State.makeRoom at hroom
  split at hroom
  · cases hroom
    exact h
  · obtain ⟨n, _, rfl⟩ := Option.map_eq_some_iff.1 hroom
    have hdropped : ((s.setPoints (s.points.removeAll n)).setPeers (s.peers.dropRecord n)).WaitsHeld P asking wants :=
      ⟨h.stopped, fun r hr => h.waits r (mem_tableErase.1 hr).1, h.marker, h.others⟩
    exact hdropped.disown n

theorem createRecord (h : s.WaitsHeld P asking wants) (f : Frame) : (s.createRecord f).WaitsHeld P asking wants := by
  refine ⟨h.stopped, fun r hr => ?_, h.marker, h.others⟩
  rcases mem_tableInsert hr with rfl | hr
  · rw [PeerRecord.freshStart_recallWait]
    exact h.stopped
  · exact h.waits r hr

theorem classify (h : s.WaitsHeld P asking wants) (hstart : P s.recallStart) (f : Frame) : (s.classify f).WaitsHeld P asking wants := by
  unfold State.classify
  split
  next r _ =>
    have hrecord : P (s.checkEpoch r f).recallStart := by
      rw [(PeerSide.checkEpoch s r f).recallStart]
      exact hstart
    exact ((h.checkEpoch r f).classifyRecord hrecord f).judgeAsk
  · split
    next t hroom =>
      have hrecord : P (t.createRecord f).recallStart := by
        rw [(((PeerSide.makeRoom hroom).trans (.setPeers _ _)).trans (.offer _ _) : PeerSide s (t.createRecord f)).recallStart]
        exact hstart
      exact (((h.makeRoom hroom).createRecord f).classifyRecord hrecord f).judgeAsk
    next => exact h.congr rfl rfl rfl

theorem mergeAsk (h : s.WaitsHeld P asking wants) (hstart : P s.recallStart) (n : Station) (asked : IndexSet) :
    (s.mergeAsk n asked).WaitsHeld P asking wants := by
  unfold State.mergeAsk
  split
  · exact h
  · split
    · have hcovered := h.mapPeer_same n (f := fun r => { r with covered := r.covered ||| asked }) (fun _ => rfl)
      exact (hcovered.testMet hstart n).judgeAsk
    · exact h

/-- The peer unit's event at a good frame. -/
theorem peerEvent (h : s.WaitsHeld P asking wants) (hstart : P s.recallStart) (f : Frame) :
    (s.peerEvent f).WaitsHeld P asking wants := by
  have hclassified := h.classify hstart f
  unfold State.peerEvent
  split
  · dsimp only
    split
    · exact hclassified
    · exact hclassified.mergeAsk (by rw [(PeerSide.classify s f).recallStart]; exact hstart) _ _
  all_goals exact hclassified

/-! ### Timers, forced recall and the join -/

theorem silenceExpires (h : s.WaitsHeld P asking wants) (r : PeerRecord) :
    (s.silenceExpires r).WaitsHeld P asking wants := by
  have hsilent : (s.fallSilent r).WaitsHeld P asking wants := by
    have hpoints : ∀ x, (s.setPoints x).WaitsHeld P asking wants := fun _ => h.congr rfl rfl rfl
    have hmapped := (hpoints (s.points.staleAll r.station)).mapPeer r.station
      (f := fun x => { x.clearRecall with
        state := .silent, silence := .running .loss (msPeriods (5 * r.periodMs s.control.timing)) })
      (PeerRecord.keepsWait_const h.stopped fun _ => rfl)
    exact (hmapped.disown r.station).congr rfl rfl rfl
  unfold State.silenceExpires
  split
  · exact hsilent
  · exact hsilent
  · exact (h.mapPeer_same r.station (f := fun r => { r with state := .lost, silence := .stopped })
      (fun _ => rfl)).congr rfl rfl rfl
  · exact h

theorem recallWaitExpires (h : s.WaitsHeld P asking wants) (r : PeerRecord) :
    (s.recallWaitExpires r).WaitsHeld P asking wants := by
  unfold State.recallWaitExpires
  split
  · exact (h.mapPeer r.station (PeerRecord.keepsWait_const h.stopped fun _ => rfl)).judgeAsk
  · have hpoints : ∀ x, (s.setPoints x).WaitsHeld P asking wants := fun _ => h.congr rfl rfl rfl
    exact ((hpoints (s.points.staleThese r.station r.need)).mapPeer r.station
      (f := fun r => { r.clearRecall with state := .live, beaconWanted := false })
      (PeerRecord.keepsWait_const h.stopped fun _ => rfl)).congr rfl rfl rfl

theorem forceRecall (h : s.WaitsHeld P asking wants) (r : PeerRecord) :
    (s.forceRecall r).WaitsHeld P asking wants := by
  unfold State.forceRecall
  split
  · exact h
  · exact (h.mapPeer r.station (f := fun r => r.beginRecall r.bounded)
      (PeerRecord.keepsWait_const h.stopped fun _ => rfl)).judgeAsk

theorem joinRecall (h : s.WaitsHeld P asking wants) : s.joinRecall.WaitsHeld P asking wants := by
  have hjoined : (s.setPeers { s.peers with records := s.peers.records.map s.joinRecord }).WaitsHeld P asking wants := by
    refine h.mapRecords (f := s.joinRecord) (fun r hr => ?_) rfl rfl rfl
    unfold State.joinRecord
    split
    · exact h.stopped
    · exact hr
  have hdone : ∀ (l : List Station) (u : State), u.WaitsHeld P asking wants →
      (l.foldl State.recoveryComplete u).WaitsHeld P asking wants := by
    intro l
    induction l with
    | nil => exact fun u hu => hu
    | cons n l ih => exact fun u hu => ih _ (hu.recoveryComplete n)
  exact (hdone (freeOrder s.freeCount s.joinDone) _ hjoined).congr rfl rfl rfl

end State.WaitsHeld

/-- The join recall is an event of the peer unit that reads one free value. -/
theorem PeerSide.joinRecall (s : State) : ∃ u, PeerSide s u ∧ s.joinRecall = u.bumpFree :=
  ⟨_, ((PeerSide.setPeers s _).trans (.foldl (fun s n => .recoveryComplete s n) _ _)).trans (.judgeAsk _), rfl⟩

end Sys2Proof.Machine
end

section
/-! PROOFS. What any command can do to the own points, the publication unit and its three wants: a property that each of
their operations keeps is kept by every step. -/

namespace Sys2Proof.Machine

open Sys2Proof

/-- What the invariants of files 02 and 04 speak of: declarations, own entries, the sets and the round of the publication
unit, and its three wants. -/
structure PublishingView where
  declarations : List Declaration
  own : List OwnEntry
  publishSet : List Index
  flight : Option UpdateFlight
  published : IndexSet
  replay : IndexSet
  resendFlight : List Index
  round : Round
  routine : Bool
  resend : Bool
  alarm : Bool

def State.publishing (s : State) : PublishingView where
  declarations := s.points.declarations
  own := s.points.own
  publishSet := s.publication.publishSet
  flight := s.publication.flight
  published := s.publication.published
  replay := s.publication.replay
  resendFlight := s.publication.resendFlight
  round := s.publication.round
  routine := s.arbiter.wants.routine
  resend := s.arbiter.wants.resend
  alarm := s.arbiter.wants.alarm

/-- A property of the publishing view that each operation on it keeps. -/
structure PublicationLaw (P : State → Prop) : Prop where
  congr : ∀ {s t : State}, P s → t.publishing = s.publishing → P t
  reset : ∀ {t : State}, t.publishing = State.reset.publishing → P t
  declare : ∀ {s : State} (d : Declaration), d.initial.length = d.size.bytes → P s → P (s.setPoints (s.points.declare d))
  commitAll : ∀ {s : State}, P s → P s.commitAll
  writeOwn : ∀ {s : State} {i : Index} {e : OwnEntry} {value : List Byte}, s.points.own? i = some e →
    value.length = e.size.bytes → P s → P (s.writeOwn i value)
  rejoinNow : ∀ {s : State}, P s → P s.rejoinNow
  restartAll : ∀ {s : State}, P s → P s.restartAll
  publishExpiry : ∀ {s : State}, P s → P s.publishExpiry
  takeRequest : ∀ {s : State} (wanted : Bool) (believed : Byte) (asked : IndexSet), P s →
    P (s.takeRequest wanted believed asked)
  startUpdate : ∀ {s t : State} {alarm : Bool} {items : List Item} {f : Frame}, s.publication.flight = none →
    (∀ i ∈ items, ∃ e ∈ s.points.own, i = e.snapshot) → (items.map Item.index).Nodup →
    s.startUpdate alarm items = some (f, t) → P s → P t
  startResend : ∀ {s t : State} {f : Frame}, s.startResend = some (f, t) → P s → P t
  decline : ∀ {s : State} {w : Want}, s.contents w = none → P s → P (s.setWant w false)
  completeUpdate : ∀ {s : State}, P s → P s.completeUpdate
  returnUpdate : ∀ {s : State}, P s → P s.returnUpdate
  completeResend : ∀ {s : State}, P s → P s.completeResend
  returnResend : ∀ {s : State}, P s → P s.returnResend
  publishSet_nodup : ∀ {s : State}, P s → s.publication.publishSet.Nodup ∧
    ∀ i ∈ s.publication.publishSet, i ∈ s.points.declared

/-! ### What leaves the view alone -/

theorem State.takeCells_publishing (s : State) (cells : List Level) : (s.takeCells cells).publishing = s.publishing := by
  unfold State.publishing
  rw [State.takeCells_points, State.takeCells_publication, State.takeCells_arbiter]

theorem State.cutAssembly_publishing (s : State) : s.cutAssembly.publishing = s.publishing := by
  unfold State.cutAssembly
  split <;> rfl

theorem State.finishOwn_publishing (s : State) : s.finishOwn.publishing = s.publishing := by
  rw [State.finishOwn_eq]
  rfl

theorem State.duplicateDetected_publishing (s : State) : s.duplicateDetected.publishing = s.publishing := by
  unfold State.duplicateDetected
  dsimp only
  split <;> rfl

theorem State.takeHello_publishing (s : State) : s.takeHello.publishing = s.publishing := by
  unfold State.takeHello
  split <;> rfl

theorem State.waitsHeld_true (s : State) :
    s.WaitsHeld (fun _ => True) s.peers.asking.isSome s.arbiter.wants :=
  ⟨trivial, fun _ _ => trivial, rfl, rfl⟩

/-- An event of the peer unit touches neither own points nor publication, and of the wants that of ASK alone. -/
theorem State.publishing_of_peerSide {s t : State} {P : Timer → Prop} {asking : Bool} (h : PeerSide s t)
    (hw : t.WaitsHeld P asking s.arbiter.wants) : t.publishing = s.publishing := by
  have hroutine := congrArg Wants.routine hw.others
  have hresend := congrArg Wants.resend hw.others
  have halarm := congrArg Wants.alarm hw.others
  unfold State.publishing
  rw [h.own, h.declarations, h.publication]
  simp only at hroutine hresend halarm
  rw [hroutine, hresend, halarm]

theorem State.peerEvent_publishing (s : State) (f : Frame) : (s.peerEvent f).publishing = s.publishing :=
  State.publishing_of_peerSide (.peerEvent s f) (s.waitsHeld_true.peerEvent trivial f)

theorem State.joinRecall_publishing (s : State) : s.joinRecall.publishing = s.publishing := by
  obtain ⟨u, hside, hu⟩ := PeerSide.joinRecall s
  have hwaits := s.waitsHeld_true.joinRecall
  rw [hu] at hwaits ⊢
  exact (State.publishing_of_peerSide hside (hwaits.congr (t := u) rfl rfl rfl) :)

theorem State.completeAsk_publishing (s : State) : s.completeAsk.publishing = s.publishing := by
  unfold State.completeAsk
  split
  · rfl
  · dsimp only
    split <;> rfl

namespace PublicationLaw

variable {P : State → Prop} {s t : State}

/-! ### The local port -/

/-- The owner of a command with as many argument bytes as it needs. -/
theorem perform (L : PublicationLaw P) (h : P s) {c : PortCommand} {args : List Byte}
    (hcount : argCount s.points c args = some args.length) : P (s.perform args c).2 := by
  cases c with
  | readStatus => exact h
  | readPoint =>
    show P (readPoint args s).2
    unfold readPoint
    repeat' split
    all_goals exact h
  | takeNotice =>
    show P (takeNotice args s).2
    unfold takeNotice
    split
    · exact h
    · exact L.congr h rfl
  | readPeer =>
    show P (readPeer args s).2
    unfold readPeer
    repeat' split
    all_goals exact h
  | readTallies => exact L.congr h rfl
  | clearFault =>
    show P (clearFault args s).2
    unfold clearFault
    repeat' split
    all_goals exact L.congr h rfl
  | setIdentity =>
    show P (setIdentity args s).2
    unfold setIdentity
    repeat' split
    all_goals exact L.congr h rfl
  | setTiming =>
    show P (setTiming args s).2
    unfold setTiming
    repeat' split
    all_goals exact L.congr h rfl
  | declarePoint =>
    show P (declarePoint args s).2
    unfold declarePoint
    split
    next index size urgent initial =>
      split
      · refine L.declare _ ?_ h
        have hlength : 3 + (sizeArg size).bytes = (index :: size :: urgent :: initial).length := Option.some.inj hcount
        simp only [List.length_cons] at hlength
        show initial.length = (sizeArg size).bytes
        omega
      · exact h
    · exact h
  | setWindow =>
    show P (setWindow args s).2
    unfold setWindow
    repeat' split
    all_goals exact L.congr h rfl
  | commit =>
    show P (Machine.commit args s).2
    unfold Machine.commit
    split
    · exact h
    · exact L.commitAll h
  | writePoint =>
    show P (writePoint args s).2
    unfold writePoint
    split
    next index value =>
      split
      next e he =>
        have hlength : writeCount s.points index = (index :: value).length := Option.some.inj hcount
        rw [writeCount, he] at hlength
        obtain ⟨i, _, hi⟩ := Option.bind_eq_some_iff.1 he
        rw [List.length_cons] at hlength
        refine L.writeOwn (i := e.index) (e := e) ?_ ?_ h
        · rw [PointTable.own?_index hi]
          exact hi
        · dsimp only at hlength
          omega
      · exact h
    · exact h
  | recallPeer =>
    have hforce : ∀ r, P (s.forceRecall r) := fun r =>
      L.congr h (State.publishing_of_peerSide (.forceRecall s r) (s.waitsHeld_true.forceRecall r))
    show P (recallPeer args s).2
    unfold recallPeer
    repeat' split
    case isFalse => exact hforce _
    all_goals exact h
  | withdraw =>
    have hnow : P s.withdrawNow := by
      unfold State.withdrawNow
      split
      · exact L.congr h rfl
      · exact L.congr h rfl
    show P (withdraw args s).2
    unfold withdraw
    split
    · exact hnow
    · exact hnow
    · exact h
    · exact h
  | rejoin =>
    show P (rejoin args s).2
    unfold rejoin
    split
    · exact L.rejoinNow h
    all_goals exact h
  | restart => exact L.restartAll h

theorem transact (L : PublicationLaw P) (h : P s) (c : Option PortCommand) (ldi : List Bool) : P (s.transact c ldi) := by
  generalize hu : s.transact c ldi = u
  have hclocked : s.Clocked u := hu ▸ State.transact_clocked s c ldi
  cases hclocked with
  | moved => exact L.congr h rfl
  | taken d args p n _ hcount => exact L.congr (L.perform h hcount) rfl

/-! ### Reception -/

theorem startPublishing (L : PublicationLaw P) (h : P s) : P s.startPublishing :=
  L.publishExpiry (L.congr h rfl)

theorem troubleExit (L : PublicationLaw P) (h : P s) : P s.troubleExit := by
  have hresumed : ∀ c : Control, P (((s.setControl c).setPublication s.publication.resume).setPeers
      (s.peers.mapWaits Timer.resume)) := fun _ => L.congr h rfl
  have hjoined : ∀ u : State, P u → P (u.joinRecall.raiseBeacon.enter .inService) := fun u hu =>
    L.congr hu (State.joinRecall_publishing u)
  unfold State.troubleExit
  dsimp only
  split
  · split
    · exact hjoined _ (hresumed _)
    · exact hjoined _ (L.startPublishing (hresumed _))
  · split
    · exact L.congr (hresumed _) rfl
    · exact L.congr (L.startPublishing (hresumed _)) rfl

theorem controlEvent (L : PublicationLaw P) (h : P s) (f : Frame) : P (s.controlEvent f) := by
  have hreport : ∀ u : State, P u → P u.goodFrameReport := by
    intro u hu
    unfold State.goodFrameReport
    split
    · split
      · exact L.congr hu rfl
      · exact L.troubleExit hu
    · exact hu
  unfold State.controlEvent
  split
  · exact hreport _ (L.congr h (State.takeHello_publishing s))
  · exact hreport _ h

theorem publicationEvent (L : PublicationLaw P) (h : P s) (f : Frame) : P (s.publicationEvent f) := by
  unfold State.publicationEvent
  split
  · split
    · exact L.takeRequest _ _ _ h
    · exact h
  all_goals exact h

theorem dispatchGood (L : PublicationLaw P) (h : P s) (f : Frame) : P (s.dispatchGood f) := by
  have hpeer : ∀ u : State, P u → P (u.peerEvent f) := fun u hu => L.congr hu (State.peerEvent_publishing u f)
  have hfree : P s.bumpFree := L.congr h rfl
  unfold State.dispatchGood
  refine L.publicationEvent ?_ f
  split
  · split
    · exact hpeer _ (L.controlEvent hfree f)
    · exact L.controlEvent (hpeer _ hfree) f
  · exact L.controlEvent (hpeer _ h) f

theorem judgeFrame (L : PublicationLaw P) (h : P s) (w : WireFrame) : P (s.judgeFrame w) := by
  have hcounted : ∀ u : FrameUnit, P (s.setFrame u) := fun _ => L.congr h rfl
  unfold State.judgeFrame
  split
  · split
    · dsimp only
      split
      · exact L.congr (hcounted _) (State.duplicateDetected_publishing _)
      · exact L.dispatchGood (hcounted _) _
    · exact hcounted _
  · exact hcounted _

/-! ### Transmission -/

/-- A frame whose contents the owner of a want supplies. -/
theorem contents (L : PublicationLaw P) (h : P s) (hidle : s.publication.flight = none) {w : Want} {f : Frame}
    (hc : s.contents w = some (f, t)) : P t := by
  obtain ⟨hnodup, hdeclared⟩ := L.publishSet_nodup h
  have hsource : ∀ (l : List Index) (alarm : Bool), l.Sublist s.publication.publishSet →
      s.startUpdate alarm (fitting 29 0 (s.snapshots l)) = some (f, t) → P t := by
    intro l alarm hl hstart
    refine L.startUpdate hidle (fun i hi => ?_) ?_ hstart h
    · obtain ⟨e, he, _, rfl⟩ := State.mem_snapshots ((fitting_sublist 29 0 _).subset hi)
      exact ⟨e, he, rfl⟩
    · refine fitting_index_nodup ?_
      rw [State.snapshots_index fun i hi => hdeclared i (hl.subset hi)]
      exact hnodup.sublist hl
  cases w with
  | alarm => exact hsource _ true List.filter_sublist hc
  | routine => exact hsource _ false (List.Sublist.refl _) hc
  | hello =>
    cases hc
    exact h
  | beacon =>
    cases hc
    exact h
  | ask =>
    simp only [State.contents, State.startAsk] at hc
    split at hc
    · cases hc
    · cases hc
      exact L.congr h rfl
  | resend => exact L.startResend hc h

theorem startFirst (L : PublicationLaw P) (h : P s) (hidle : s.publication.flight = none) (wants : List Want) :
    P (s.startFirst wants) := by
  induction wants generalizing s with
  | nil => exact h
  | cons w rest ih =>
    unfold State.startFirst
    split
    · split
      next hc => exact L.congr (L.contents h hidle hc) rfl
      next hc => exact ih (s := s.setWant w false) (L.decline hc h) hidle
    · exact ih h hidle

theorem ownerCompleted (L : PublicationLaw P) (h : P s) (w : Want) : P (s.ownerCompleted w) := by
  have hhello : P s.completeHello := by
    have hlowered : ∀ c : Control, P ((s.setWant .hello false).setControl c) := fun _ => L.congr h rfl
    unfold State.completeHello
    dsimp only
    split
    · exact L.startPublishing (hlowered _)
    · exact L.congr (hlowered s.control) rfl
  cases w with
  | alarm => exact L.completeUpdate h
  | routine => exact L.completeUpdate h
  | hello => exact hhello
  | ask => exact L.congr h (State.completeAsk_publishing s)
  | beacon => exact L.congr h rfl
  | resend => exact L.completeResend h

theorem ownerReturned (L : PublicationLaw P) (h : P s) (w : Want) : P (s.ownerReturned w) := by
  cases w with
  | alarm => exact L.returnUpdate h
  | routine => exact L.returnUpdate h
  | hello => exact h
  | ask => exact L.congr h rfl
  | beacon => exact h
  | resend => exact L.returnResend h

theorem endFlight (L : PublicationLaw P) (h : P s) : P s.endFlight := by
  unfold State.endFlight
  split
  · exact L.congr h rfl
  · exact h

/-- The end of a flight, as the owner takes it. -/
theorem landed (L : PublicationLaw P) (h : P s) (x : Arbiter) (hx : x.wants = s.arbiter.wants) :
    P (s.land.setArbiter x) := by
  refine L.congr h ?_
  unfold State.publishing
  rw [State.setArbiter_arbiter, hx]
  rfl

theorem takeCompleted (L : PublicationLaw P) (h : P s) (w : Want) : P (s.takeCompleted w) :=
  L.endFlight (L.ownerCompleted (L.landed h { s.land.arbiter with failures := 0 } rfl) w)

theorem takeLost (L : PublicationLaw P) (h : P s) (w : Want) : P (s.takeLost w) :=
  L.endFlight (L.ownerReturned (L.landed h
    { s.land.arbiter with arbLost := Tally.rise s.land.arbiter.arbLost } rfl) w)

theorem takeFailed (L : PublicationLaw P) (h : P s) (w : Want) : P (s.takeFailed w) := by
  have hreturned := L.ownerReturned (L.landed h
    { s.land.arbiter with txFail := Tally.rise s.land.arbiter.txFail, failures := s.land.arbiter.failures + 1 } rfl) w
  unfold State.takeFailed
  dsimp only
  split
  · exact L.congr hreturned rfl
  · exact L.endFlight hreturned

/-! ### Every command -/

/-- Every command keeps the property, if no UPDATE is in flight while the arbiter has no frame in flight. -/
theorem exec (L : PublicationLaw P) (h : P s) (hidle : s.arbiter.inFlight = none → s.publication.flight = none)
    (c : Instr) : ∃ t, exec c s = .next t ∧ P t := by
  have hcells : ∀ u cells, P u → P (u.takeCells cells) := fun u cells hu => L.congr hu (State.takeCells_publishing u cells)
  have hfreed : ∀ u, P u → P u.freeLine := fun u hu => L.congr hu (State.cutAssembly_publishing u)
  cases c with
  | badCommand ldi | setIdentity ldi | setTiming ldi | declarePoint ldi | setWindow ldi | commit ldi | readStatus ldi
  | readPoint ldi | takeNotice ldi | readPeer ldi | readTallies ldi | clearFault ldi | writePoint ldi | recallPeer ldi
  | withdraw ldi | rejoin ldi | restart ldi => exact ⟨_, rfl, L.transact h _ ldi⟩
  | coldReset => exact ⟨_, rfl, L.reset rfl⟩
  | transactionOpen | noticeRemoval | breakEnd | stuck | earlyEdge | beaconTimerExpiry | helloHoldExpiry =>
    refine ⟨_, rfl, ?_⟩
    split
    · exact L.congr h rfl
    · exact L.congr h rfl
  | transactionClose => exact ⟨_, rfl, L.congr h rfl⟩
  | lineBusy cells =>
    refine ⟨_, rfl, ?_⟩
    split
    · dsimp only
      split
      · exact L.congr h rfl
      · exact hcells _ _ (L.congr h rfl)
    · exact h
  | lineIdle cells =>
    refine ⟨_, rfl, ?_⟩
    split
    · exact hfreed _ (hcells _ _ h)
    · exact h
  | lineBreak cells =>
    refine ⟨_, rfl, ?_⟩
    split
    · exact L.congr (hcells _ _ h) (State.cutAssembly_publishing _)
    · exact h
  | stuckEnd =>
    refine ⟨_, rfl, ?_⟩
    split
    · exact hfreed _ h
    · exact h
  | frameEnd cells =>
    have hended : P s.finishAssembly := L.congr h rfl
    refine ⟨_, rfl, ?_⟩
    split
    · exact h
    · dsimp only
      split
      · split
        · exact hended
        · exact L.judgeFrame hended _
      · exact h
  | transmitStart =>
    refine ⟨_, rfl, ?_⟩
    unfold State.start
    split
    next hmay => exact L.startFirst h (hidle ((State.mayTransmit_iff s).1 hmay).2.2.2) _
    · exact h
  | completed =>
    refine ⟨_, rfl, ?_⟩
    split
    · split
      · exact L.takeCompleted (L.congr h (State.finishOwn_publishing s)) _
      · exact h
    · exact h
  | lost =>
    refine ⟨_, rfl, ?_⟩
    split
    · split
      · exact hcells _ _ (L.takeLost h _)
      · exact h
    · exact h
  | bitError cells =>
    refine ⟨_, rfl, ?_⟩
    split
    · exact hcells _ _ (L.congr h (State.takeCells_publishing s _))
    · exact h
  | failed =>
    refine ⟨_, rfl, ?_⟩
    split
    · split
      · exact L.takeFailed h _
      · exact h
    · exact h
  | publishTimerExpiry =>
    refine ⟨_, rfl, ?_⟩
    split
    · exact L.publishExpiry (L.congr h rfl)
    · exact h
  | silenceTimerExpiry peer =>
    refine ⟨_, rfl, ?_⟩
    split
    next r _ =>
      split
      · exact L.congr h (State.publishing_of_peerSide (.silenceExpires s r) (s.waitsHeld_true.silenceExpires r))
      · exact h
    · exact h
  | recallWaitExpiry peer =>
    refine ⟨_, rfl, ?_⟩
    split
    next r _ =>
      split
      · exact L.congr h (State.publishing_of_peerSide (.recallWaitExpires s r) (s.waitsHeld_true.recallWaitExpires r))
      · exact h
    · exact h
  | joinExpiry =>
    refine ⟨_, rfl, ?_⟩
    split
    · exact L.congr h (State.joinRecall_publishing s)
    · exact h
  | millisecondClockAdvance => exact ⟨_, rfl, L.congr h rfl⟩

/-- Every step keeps the property. -/
theorem step (L : PublicationLaw P) (h : P s) (hidle : s.arbiter.inFlight = none → s.publication.flight = none)
    (hstep : step s = .next t) : P t := by
  unfold Machine.step at hstep
  split at hstep
  · cases hstep
    exact L.congr h rfl
  next c rest _ =>
    have hrest : P { s with pending := rest } := L.congr h rfl
    obtain ⟨u, hu, hP⟩ := L.exec hrest hidle c
    cases hu.symm.trans hstep
    exact hP

end PublicationLaw

end Sys2Proof.Machine
end

section
/-! PROOFS. The publication sets: what each operation of the publication unit does to the publishing view, and that each
keeps the sets to declared and published indexes. -/

namespace Sys2Proof.Machine

open Sys2Proof

/-! ### What each operation does to the view -/

/-- The view of a station that has published nothing of these own entries (R28, R48). -/
def PublishingView.fresh (declarations : List Declaration) (own : List OwnEntry) : PublishingView where
  declarations := declarations
  own := own
  publishSet := own.map OwnEntry.index
  flight := none
  published := 0
  replay := 0
  resendFlight := []
  round := .closed
  routine := false
  resend := false
  alarm := false

/-- Whether an own entry of the view is urgent. -/
def PublishingView.urgent (v : PublishingView) : Index → Bool := PointTable.urgent ⟨v.declarations, v.own, []⟩

/-- The items of the UPDATE in flight. -/
def PublishingView.flightItems (v : PublishingView) : List Item :=
  match v.flight with
  | some f => f.items
  | none => []

theorem PublishingView.flightItems_some {v : PublishingView} {f : UpdateFlight} (h : v.flight = some f) :
    v.flightItems = f.items := by
  unfold PublishingView.flightItems
  rw [h]

theorem State.publishing_reset : State.reset.publishing = .fresh [] [] := rfl

theorem State.publishing_commitAll (s : State) :
    s.commitAll.publishing = .fresh s.points.declarations (s.points.declarations.map Declaration.toEntry) := rfl

/-- An own entry with nothing published (R8). -/
def OwnEntry.unpublished (e : OwnEntry) : OwnEntry := { e with published := none }

theorem State.publishing_restartAll (s : State) :
    s.restartAll.publishing = .fresh s.points.declarations (s.points.own.map OwnEntry.unpublished) := rfl

theorem State.publishing_rejoinNow (s : State) :
    s.rejoinNow.publishing = { s.publishing with round := .closed, routine := false } := rfl

theorem State.publishing_publishExpiry (s : State) :
    s.publishExpiry.publishing =
      if s.publishing.publishSet ≠ [] ∧ s.publishing.round = .closed then
        { s.publishing with round := .opened 0, routine := true }
      else s.publishing := by
  rw [State.publishExpiry_eq]
  by_cases h : s.publication.publishSet ≠ [] ∧ s.publication.round = .closed
  · rw [if_pos h, if_pos (by exact h)]
    rfl
  · rw [if_neg h, if_neg (by exact h)]

theorem State.publishing_writeOwn {s : State} {i : Index} {e : OwnEntry} (he : s.points.own? i = some e)
    (value : List Byte) :
    (s.writeOwn i value).publishing =
      { s.publishing with
        own := s.publishing.own.map (OwnEntry.written i value)
        publishSet := appendIndex s.publishing.publishSet i
        alarm := s.publishing.alarm || e.urgent
        routine := s.publishing.round.isOpen } := by
  rw [State.writeOwn_eq he]
  rfl

/-- The Replay Set with the asked indexes added (R89). -/
def PublishingView.requested (v : PublishingView) (asked : IndexSet) : IndexSet :=
  v.replay ||| IndexSet.diff (asked &&& v.published) (IndexSet.ofList v.resendFlight)

theorem State.publishing_takeRequest (s : State) (wanted : Bool) (believed : Byte) (asked : IndexSet) :
    (s.takeRequest wanted believed asked).publishing =
      { s.publishing with
        replay := s.publishing.requested asked
        resend := s.publishing.requested asked != 0 && s.publishing.resendFlight.isEmpty } := by
  rw [State.takeRequest_eq s wanted believed asked rfl]
  rfl

/-- In the sorted list of own entries an index stands once. -/
theorem OwnEntry.eq_of_index {l : List OwnEntry} (h : tableSorted (fun e : OwnEntry => e.index.toNat) l) {e x : OwnEntry}
    (he : e ∈ l) (hx : x ∈ l) (hi : e.index = x.index) : e = x := by
  have hfind := tableFind_of_mem h he
  rw [hi, tableFind_of_mem h hx] at hfind
  exact (Option.some.inj hfind).symm

/-- A list of indexes without those that items carry. -/
def withoutCarried (l : List Index) (items : List Item) : List Index :=
  l.filter (fun i => !(items.map Item.index).contains i)

theorem mem_withoutCarried {l : List Index} {items : List Item} {i : Index} :
    i ∈ withoutCarried l items ↔ i ∈ l ∧ i ∉ items.map Item.index := by
  simp [withoutCarried]

theorem State.publishing_startUpdate {s t : State} {alarm : Bool} {items : List Item} {f : Frame}
    (h : s.startUpdate alarm items = some (f, t)) :
    t.publishing =
      { s.publishing with
        publishSet := withoutCarried s.publishing.publishSet items
        flight := some ⟨alarm, s.publication.sequence, items⟩
        routine := s.publishing.round.isOpen && !(withoutCarried s.publishing.publishSet items).isEmpty
        alarm := s.publishing.alarm &&
          (withoutCarried s.publishing.publishSet items).any s.publishing.urgent } := by
  have hitems : items ≠ [] := by
    intro hnil
    rw [State.startUpdate_none.2 hnil] at h
    cases h
  rw [State.startUpdate_some hitems] at h
  cases h
  rfl

theorem State.publishing_startResend {s t : State} {f : Frame} (h : s.startResend = some (f, t)) :
    t.publishing =
      { s.publishing with
        replay := IndexSet.diff s.publishing.replay (IndexSet.ofList (s.resendItems.map Item.index))
        resendFlight := s.resendItems.map Item.index
        resend := false } ∧ s.resendItems ≠ [] := by
  have hitems : s.resendItems ≠ [] := by
    intro hnil
    rw [State.startResend_none.2 hnil] at h
    cases h
  rw [State.startResend_some hitems] at h
  cases h
  exact ⟨rfl, hitems⟩

/-- The view after a completed UPDATE (R38). -/
def PublishingView.completed (v : PublishingView) (f : UpdateFlight) : PublishingView :=
  let replay := IndexSet.diff v.replay (IndexSet.ofList (f.items.map Item.index))
  let round := v.round.afterCompletion f.alarm v.publishSet.isEmpty
  { v with
    own := v.own.map (OwnEntry.publishedBy f.items)
    flight := none
    published := v.published ||| IndexSet.ofList (f.items.map Item.index)
    replay := replay
    round := round
    resend := replay != 0 && v.resendFlight.isEmpty
    routine := round.isOpen && !v.publishSet.isEmpty
    alarm := v.publishSet.any v.urgent }

theorem State.publishing_completeUpdate {s : State} {f : UpdateFlight} (hf : s.publication.flight = some f)
    (hnodup : (f.items.map Item.index).Nodup) : s.completeUpdate.publishing = s.publishing.completed f := by
  rw [State.completeUpdate_eq hf hnodup]
  rfl

/-- The Publish Set after an UPDATE that has been lost or has failed (R39). -/
def PublishingView.returnedSet (v : PublishingView) (f : UpdateFlight) : List Index :=
  f.items.map Item.index ++ withoutCarried v.publishSet f.items

theorem State.publishing_returnUpdate {s : State} {f : UpdateFlight} (hf : s.publication.flight = some f) :
    s.returnUpdate.publishing =
      { s.publishing with
        publishSet := s.publishing.returnedSet f
        flight := none
        routine := s.publishing.round.isOpen && !(s.publishing.returnedSet f).isEmpty
        alarm := (s.publishing.returnedSet f).any s.publishing.urgent } := by
  rw [State.returnUpdate_eq hf]
  rfl

theorem State.publishing_completeResend (s : State) :
    s.completeResend.publishing =
      { s.publishing with resendFlight := [], resend := s.publishing.replay != 0 } := by
  rw [State.completeResend_eq]
  rfl

theorem State.publishing_returnResend (s : State) :
    s.returnResend.publishing =
      { s.publishing with
        replay := s.publishing.replay ||| IndexSet.ofList s.publishing.resendFlight
        resendFlight := []
        resend := (s.publishing.replay ||| IndexSet.ofList s.publishing.resendFlight) != 0 } := by
  rw [State.returnResend_eq]
  rfl

/-! ### The sets -/

/-- The publication sets are made of declared and published indexes (R30, R32, R37, R42, R90), index by index. -/
structure PublishingView.Held (v : PublishingView) : Prop where
  declarationsSorted : tableSorted (fun d : Declaration => d.index.toNat) v.declarations
  ownSorted : tableSorted (fun e : OwnEntry => e.index.toNat) v.own
  initials : ∀ d ∈ v.declarations, d.initial.length = d.size.bytes
  values : ∀ e ∈ v.own, e.wf
  nodup : v.publishSet.Nodup
  declared : ∀ i ∈ v.publishSet, i ∈ v.own.map OwnEntry.index
  carriedOnce : (v.flightItems.map Item.index).Nodup
  carried : ∀ i ∈ v.flightItems, ∃ e ∈ v.own, e.index = i.index ∧ e.size = i.size ∧ i.value.length = i.size.bytes
  published : ∀ i, IndexSet.mem v.published i = true ↔ ∃ e ∈ v.own, e.index = i ∧ e.published ≠ none
  replay : ∀ i, IndexSet.mem v.replay i = true → IndexSet.mem v.published i = true
  resending : ∀ i ∈ v.resendFlight, IndexSet.mem v.published i = true
  disjoint : ∀ i ∈ v.resendFlight, IndexSet.mem v.replay i = false
  round : v.round.carried ≤ 3

theorem PointTable.mem_publishedSet (t : PointTable) (i : Index) :
    IndexSet.mem t.publishedSet i = true ↔ ∃ e ∈ t.own, e.index = i ∧ e.published ≠ none := by
  unfold PointTable.publishedSet
  rw [IndexSet.mem_ofList, List.contains_iff_mem, List.mem_map]
  constructor
  · rintro ⟨e, he, rfl⟩
    obtain ⟨hmem, hsome⟩ := List.mem_filter.1 he
    exact ⟨e, hmem, rfl, Option.isSome_iff_ne_none.1 hsome⟩
  · rintro ⟨e, hmem, rfl, hsome⟩
    exact ⟨e, List.mem_filter.2 ⟨hmem, Option.isSome_iff_ne_none.2 hsome⟩, rfl⟩

theorem IndexSet.and_eq_zero_iff (s t : IndexSet) :
    s &&& t = 0 ↔ ∀ i, IndexSet.mem t i = true → IndexSet.mem s i = false := by
  constructor
  · intro h i hi
    have hmem := IndexSet.mem_and s t i
    rw [h, hi, Bool.and_true] at hmem
    rw [← hmem]
    exact IndexSet.mem_zero i
  · intro h
    refine IndexSet.ext fun i => ?_
    rw [IndexSet.mem_and]
    cases hi : IndexSet.mem t i with
    | false => rw [Bool.and_false]; exact (IndexSet.mem_zero i).symm
    | true => rw [h i hi, Bool.false_and]; exact (IndexSet.mem_zero i).symm

theorem IndexSet.mem_ofList_iff (l : List Index) (i : Index) : IndexSet.mem (IndexSet.ofList l) i = true ↔ i ∈ l := by
  rw [IndexSet.mem_ofList, List.contains_iff_mem]

theorem State.publishing_held_iff (s : State) : s.publishing.Held ↔ s.publicationWf := by
  constructor
  · intro h
    refine ⟨⟨h.declarationsSorted, h.ownSorted, h.initials, h.values⟩, h.nodup, h.declared, ⟨h.carriedOnce, h.carried⟩,
      ?_, ?_, ?_, ?_, h.round⟩
    · refine IndexSet.ext fun i => Bool.eq_iff_iff.2 ((h.published i).trans ?_)
      exact (PointTable.mem_publishedSet s.points i).symm
    · exact (IndexSet.subset_iff _ _).2 h.replay
    · exact (IndexSet.subset_iff _ _).2 fun i hi => h.resending i ((IndexSet.mem_ofList_iff _ i).1 hi)
    · exact (IndexSet.and_eq_zero_iff _ _).2 fun i hi => h.disjoint i ((IndexSet.mem_ofList_iff _ i).1 hi)
  · rintro ⟨⟨hdecl, hown, hinit, hvalues⟩, hnodup, hdeclared, ⟨honce, hcarried⟩, hpub, hreplay, hresend, hdisjoint, hround⟩
    refine ⟨hdecl, hown, hinit, hvalues, hnodup, hdeclared, honce, hcarried, fun i => ?_, ?_, fun i hi => ?_,
      fun i hi => ?_, hround⟩
    · show IndexSet.mem s.publication.published i = true ↔ _
      rw [hpub]
      exact PointTable.mem_publishedSet s.points i
    · exact (IndexSet.subset_iff _ _).1 hreplay
    · exact (IndexSet.subset_iff _ _).1 hresend i ((IndexSet.mem_ofList_iff _ i).2 hi)
    · exact (IndexSet.and_eq_zero_iff _ _).1 hdisjoint i ((IndexSet.mem_ofList_iff _ i).2 hi)

theorem map_index_of_keeps {l : List OwnEntry} {g : OwnEntry → OwnEntry} (hg : ∀ e, (g e).index = e.index) :
    (l.map g).map OwnEntry.index = l.map OwnEntry.index := by
  rw [List.map_map]
  exact List.map_congr_left fun e _ => hg e

namespace PublishingView.Held

variable {v : PublishingView}

theorem own_unique (h : v.Held) {e x : OwnEntry} (he : e ∈ v.own) (hx : x ∈ v.own) (hi : e.index = x.index) : e = x :=
  OwnEntry.eq_of_index h.ownSorted he hx hi

theorem fresh {declarations : List Declaration} {own : List OwnEntry}
    (hdecl : tableSorted (fun d : Declaration => d.index.toNat) declarations)
    (hown : tableSorted (fun e : OwnEntry => e.index.toNat) own)
    (hinit : ∀ d ∈ declarations, d.initial.length = d.size.bytes) (hvalues : ∀ e ∈ own, e.wf)
    (hnone : ∀ e ∈ own, e.published = none) : (PublishingView.fresh declarations own).Held where
  declarationsSorted := hdecl
  ownSorted := hown
  initials := hinit
  values := hvalues
  nodup := List.pairwise_map.2 (hown.imp fun hlt heq => absurd (congrArg BitVec.toNat heq) (Nat.ne_of_lt hlt))
  declared := fun _ hi => hi
  carriedOnce := List.nodup_nil
  carried := nofun
  published := fun i => by
    constructor
    · intro hi
      rw [show (PublishingView.fresh declarations own).published = 0#64 from rfl, IndexSet.mem_zero] at hi
      cases hi
    · rintro ⟨e, he, _, hsome⟩
      exact absurd (hnone e he) hsome
  replay := fun _ hi => hi
  resending := nofun
  disjoint := nofun
  round := Nat.zero_le _

theorem declare (h : v.Held) {d : Declaration} (hd : d.initial.length = d.size.bytes) :
    { v with declarations := tableInsert (fun d : Declaration => d.index.toNat) d v.declarations }.Held :=
  { h with
    declarationsSorted := tableInsert_sorted h.declarationsSorted
    initials := fun x hx => by
      rcases mem_tableInsert hx with rfl | hx
      · exact hd
      · exact h.initials x hx }

theorem commit (h : v.Held) : (PublishingView.fresh v.declarations (v.declarations.map Declaration.toEntry)).Held := by
  refine fresh h.declarationsSorted (List.pairwise_map.2 h.declarationsSorted) h.initials ?_ ?_
  · intro e he
    obtain ⟨d, hd, rfl⟩ := List.mem_map.1 he
    exact ⟨h.initials d hd, nofun⟩
  · intro e he
    obtain ⟨d, _, rfl⟩ := List.mem_map.1 he
    rfl

theorem restart (h : v.Held) : (PublishingView.fresh v.declarations (v.own.map OwnEntry.unpublished)).Held := by
  refine fresh h.declarationsSorted (map_sorted (f := OwnEntry.unpublished) (fun _ => rfl) h.ownSorted) h.initials ?_ ?_
  · intro e he
    obtain ⟨x, hx, rfl⟩ := List.mem_map.1 he
    exact ⟨(h.values x hx).1, nofun⟩
  · intro e he
    obtain ⟨x, _, rfl⟩ := List.mem_map.1 he
    rfl

theorem written (h : v.Held) {i : Index} {e : OwnEntry} (he : e ∈ v.own) (hi : e.index = i) {value : List Byte}
    (hvalue : value.length = e.size.bytes) (alarm routine : Bool) :
    { v with
      own := v.own.map (OwnEntry.written i value)
      publishSet := appendIndex v.publishSet i
      alarm := alarm
      routine := routine }.Held := by
  have hwritten : ∀ x : OwnEntry, (x.written i value).size = x.size ∧ (x.written i value).published = x.published := by
    intro x
    unfold OwnEntry.written
    split
    · exact ⟨rfl, rfl⟩
    · exact ⟨rfl, rfl⟩
  have hindex := map_index_of_keeps (l := v.own) (OwnEntry.written_index i value)
  refine { h with
    ownSorted := map_sorted (fun x => by rw [OwnEntry.written_index]) h.ownSorted
    values := ?_, nodup := ?_, declared := ?_, carried := ?_, published := ?_ }
  · intro y hy
    obtain ⟨x, hx, rfl⟩ := List.mem_map.1 hy
    obtain ⟨hcurrent, hpublished⟩ := h.values x hx
    refine ⟨?_, ?_⟩
    · rw [(hwritten x).1, OwnEntry.written]
      split
      next hxi =>
        rw [h.own_unique hx he (hxi.trans hi.symm)]
        exact hvalue
      · exact hcurrent
    · rw [(hwritten x).1, (hwritten x).2]
      exact hpublished
  · show (appendIndex v.publishSet i).Nodup
    unfold appendIndex
    split
    · exact h.nodup
    next hnot =>
      refine List.nodup_append.2 ⟨h.nodup, List.nodup_singleton i, fun a ha b hb hab => hnot ?_⟩
      rw [List.contains_iff_mem, ← List.mem_singleton.1 hb, ← hab]
      exact ha
  · intro j hj
    rw [hindex]
    rcases mem_appendIndex.1 hj with hj | rfl
    · exact h.declared j hj
    · exact List.mem_map.2 ⟨e, he, hi⟩
  · intro j hj
    obtain ⟨x, hx, hxi, hxs, hlength⟩ := h.carried j hj
    exact ⟨_, List.mem_map_of_mem hx, by rw [OwnEntry.written_index, hxi], by rw [(hwritten x).1, hxs], hlength⟩
  · intro j
    refine (h.published j).trans ⟨?_, ?_⟩
    · rintro ⟨x, hx, hxj, hsome⟩
      exact ⟨_, List.mem_map_of_mem hx, by rw [OwnEntry.written_index, hxj], by rw [(hwritten x).2]; exact hsome⟩
    · rintro ⟨y, hy, hyj, hsome⟩
      obtain ⟨x, hx, rfl⟩ := List.mem_map.1 hy
      exact ⟨x, hx, by rw [← OwnEntry.written_index i value, hyj], by rw [← (hwritten x).2]; exact hsome⟩

theorem requested (h : v.Held) (asked : IndexSet) (resend : Bool) :
    { v with replay := v.requested asked, resend := resend }.Held := by
  have hmem : ∀ i, IndexSet.mem (v.requested asked) i = true ↔ IndexSet.mem v.replay i = true ∨
      (IndexSet.mem asked i = true ∧ IndexSet.mem v.published i = true) ∧ i ∉ v.resendFlight := by
    intro i
    simp [PublishingView.requested]
  refine { h with
    replay := fun i hi => ?_
    disjoint := fun i hi => Bool.eq_false_iff.2 fun hin => ?_ }
  · rcases (hmem i).1 hi with hi | ⟨⟨_, hi⟩, _⟩
    · exact h.replay i hi
    · exact hi
  · rcases (hmem i).1 hin with hin | ⟨_, hnot⟩
    · exact Bool.eq_false_iff.1 (h.disjoint i hi) hin
    · exact hnot hi

theorem startUpdate (h : v.Held) {alarm : Bool} {sequence : Byte} {items : List Item}
    (hitems : ∀ i ∈ items, ∃ e ∈ v.own, i = e.snapshot) (honce : (items.map Item.index).Nodup) (routine alarmWant : Bool) :
    { v with
      publishSet := withoutCarried v.publishSet items
      flight := some ⟨alarm, sequence, items⟩
      routine := routine
      alarm := alarmWant }.Held :=
  { h with
    nodup := h.nodup.filter _
    declared := fun i hi => h.declared i (mem_withoutCarried.1 hi).1
    carriedOnce := honce
    carried := fun i hi => by
      obtain ⟨e, he, rfl⟩ := hitems i hi
      exact ⟨e, he, rfl, rfl, (h.values e he).1⟩ }

theorem startResend (h : v.Held) {carried : List Index} (hc : ∀ i ∈ carried, IndexSet.mem v.replay i = true)
    (resend : Bool) :
    { v with
      replay := IndexSet.diff v.replay (IndexSet.ofList carried)
      resendFlight := carried
      resend := resend }.Held :=
  { h with
    replay := fun i hi => h.replay i (by
      rw [IndexSet.mem_diff, Bool.and_eq_true] at hi
      exact hi.1)
    resending := fun i hi => h.replay i (hc i hi)
    disjoint := fun i hi => by
      rw [IndexSet.mem_diff, (IndexSet.mem_ofList_iff carried i).2 hi]
      exact Bool.and_false _ }

theorem completeResend (h : v.Held) (resend : Bool) : { v with resendFlight := [], resend := resend }.Held :=
  { h with resending := nofun, disjoint := nofun }

theorem returnResend (h : v.Held) (resend : Bool) :
    { v with
      replay := v.replay ||| IndexSet.ofList v.resendFlight
      resendFlight := []
      resend := resend }.Held :=
  { h with
    replay := fun i hi => by
      rw [IndexSet.mem_or, Bool.or_eq_true] at hi
      rcases hi with hi | hi
      · exact h.replay i hi
      · exact h.resending i ((IndexSet.mem_ofList_iff _ i).1 hi)
    resending := nofun
    disjoint := nofun }

theorem returnUpdate (h : v.Held) {f : UpdateFlight} (hf : v.flight = some f) (routine alarm : Bool) :
    { v with publishSet := v.returnedSet f, flight := none, routine := routine, alarm := alarm }.Held := by
  have hitems := PublishingView.flightItems_some hf
  refine { h with
    nodup := ?_
    declared := fun i hi => ?_
    carriedOnce := List.nodup_nil
    carried := nofun }
  · refine List.nodup_append.2 ⟨by rw [← hitems]; exact h.carriedOnce, h.nodup.filter _, fun a ha b hb hab => ?_⟩
    exact (mem_withoutCarried.1 hb).2 (hab ▸ ha)
  · rcases List.mem_append.1 hi with hi | hi
    · obtain ⟨x, hx, rfl⟩ := List.mem_map.1 hi
      obtain ⟨e, he, hindex, _⟩ := h.carried x (by rw [hitems]; exact hx)
      exact List.mem_map.2 ⟨e, he, hindex⟩
    · exact h.declared i (mem_withoutCarried.1 hi).1

theorem round_afterCompletion_le {r : Round} (h : r.carried ≤ 3) (alarm empty : Bool) :
    (r.afterCompletion alarm empty).carried ≤ 3 := by
  cases r with
  | closed => exact Nat.zero_le _
  | opened n =>
    unfold Round.afterCompletion
    dsimp only
    split
    · exact Nat.zero_le _
    · split
      · exact h
      · split
        next hn => exact hn
        next => exact Nat.zero_le _

theorem completed (h : v.Held) {f : UpdateFlight} (hf : v.flight = some f) : (v.completed f).Held := by
  have hitems := PublishingView.flightItems_some hf
  have honce : (f.items.map Item.index).Nodup := by
    rw [← hitems]
    exact h.carriedOnce
  have hentry : ∀ i ∈ f.items, ∃ e ∈ v.own, e.index = i.index ∧ e.size = i.size ∧ i.value.length = i.size.bytes := by
    rw [← hitems]
    exact h.carried
  have hindex := map_index_of_keeps (l := v.own) (OwnEntry.publishedBy_index f.items)
  refine { h with
    ownSorted := map_sorted (fun e => by rw [OwnEntry.publishedBy_index]) h.ownSorted
    values := ?_
    declared := fun i hi => by
      show i ∈ (v.own.map (OwnEntry.publishedBy f.items)).map OwnEntry.index
      rw [hindex]
      exact h.declared i hi
    carriedOnce := List.nodup_nil
    carried := nofun
    published := ?_
    replay := fun i hi => ?_
    resending := fun i hi => ?_
    disjoint := fun i hi => ?_
    round := round_afterCompletion_le h.round _ _ }
  · intro y hy
    obtain ⟨e, he, rfl⟩ := List.mem_map.1 hy
    obtain ⟨hcurrent, hpublished⟩ := h.values e he
    refine ⟨by rw [OwnEntry.publishedBy_current, OwnEntry.publishedBy_size]; exact hcurrent, fun p hp => ?_⟩
    rw [OwnEntry.publishedBy_size]
    by_cases hmem : e.index ∈ f.items.map Item.index
    · obtain ⟨i, hi, hie⟩ := List.mem_map.1 hmem
      obtain ⟨x, hx, hxi, hxs, hlength⟩ := hentry i hi
      rw [OwnEntry.publishedBy_of_mem honce hi hie] at hp
      cases hp
      rw [← h.own_unique hx he (hxi.trans hie), hxs]
      exact hlength
    · rw [OwnEntry.publishedBy_of_not_mem hmem] at hp
      exact hpublished p hp
  · intro j
    show IndexSet.mem (v.published ||| IndexSet.ofList (f.items.map Item.index)) j = true ↔
      ∃ e ∈ v.own.map (OwnEntry.publishedBy f.items), e.index = j ∧ e.published ≠ none
    rw [IndexSet.mem_or, Bool.or_eq_true, IndexSet.mem_ofList_iff, h.published j]
    constructor
    · rintro (⟨e, he, hej, hsome⟩ | hj)
      · refine ⟨_, List.mem_map_of_mem he, by rw [OwnEntry.publishedBy_index, hej], ?_⟩
        unfold OwnEntry.publishedBy
        split
        · exact nofun
        · exact hsome
      · obtain ⟨i, hi, rfl⟩ := List.mem_map.1 hj
        obtain ⟨e, he, hei, _⟩ := hentry i hi
        refine ⟨_, List.mem_map_of_mem he, by rw [OwnEntry.publishedBy_index, hei], ?_⟩
        rw [OwnEntry.publishedBy_of_mem honce hi hei.symm]
        exact nofun
    · rintro ⟨y, hy, hyj, hsome⟩
      obtain ⟨e, he, rfl⟩ := List.mem_map.1 hy
      rw [OwnEntry.publishedBy_index] at hyj
      by_cases hmem : e.index ∈ f.items.map Item.index
      · exact .inr (hyj ▸ hmem)
      · rw [OwnEntry.publishedBy_of_not_mem hmem] at hsome
        exact .inl ⟨e, he, hyj, hsome⟩
  · have hbefore : IndexSet.mem v.replay i = true := by
      have hdiff : IndexSet.mem (IndexSet.diff v.replay _) i = true := hi
      rw [IndexSet.mem_diff, Bool.and_eq_true] at hdiff
      exact hdiff.1
    show IndexSet.mem (v.published ||| _) i = true
    rw [IndexSet.mem_or, h.replay i hbefore, Bool.true_or]
  · show IndexSet.mem (v.published ||| _) i = true
    rw [IndexSet.mem_or, h.resending i hi, Bool.true_or]
  · show IndexSet.mem (IndexSet.diff v.replay _) i = false
    rw [IndexSet.mem_diff, h.disjoint i hi, Bool.false_and]

end PublishingView.Held

end Sys2Proof.Machine
end

section
/-! PROOFS. What the publication unit's wants follow and which own values wait, and the two invariants (O57, O58). -/

namespace Sys2Proof.Machine

open Sys2Proof

/-! ### The wants -/

/-- The three wants of the publication unit are what the sets and the round make them (R32, R35, R91). -/
structure PublishingView.WantsHeld (v : PublishingView) : Prop where
  routine : v.routine = (v.round.isOpen && !v.publishSet.isEmpty)
  resend : v.resend = (v.replay != 0 && v.resendFlight.isEmpty)
  alarm : v.alarm = true → v.publishSet.any v.urgent = true

theorem State.publishing_wantsHeld_iff (s : State) : s.publishing.WantsHeld ↔ s.wantsWf :=
  ⟨fun h => ⟨h.routine, h.resend, h.alarm⟩, fun ⟨hroutine, hresend, halarm⟩ => ⟨hroutine, hresend, halarm⟩⟩

theorem PublishingView.urgent_map {v w : PublishingView} {g : OwnEntry → OwnEntry} (h : w.own = v.own.map g)
    (hg : ∀ e, (g e).index = e.index) (hu : ∀ e, (g e).urgent = e.urgent) : w.urgent = v.urgent :=
  PointTable.urgent_map (t := ⟨v.declarations, v.own, []⟩) (u := ⟨w.declarations, w.own, []⟩) h hg hu

/-- The items of a RESEND are of the Replay Set (R92). -/
theorem State.mem_resendItems {s : State} {i : Item} (h : i ∈ s.resendItems) :
    IndexSet.mem s.publication.replay i.index = true := by
  obtain ⟨j, hj, hi⟩ := List.mem_filterMap.1 ((fitting_sublist 30 0 _).subset h)
  obtain ⟨e, he, hitem⟩ := Option.bind_eq_some_iff.1 hi
  obtain ⟨p, _, rfl⟩ := Option.map_eq_some_iff.1 hitem
  show IndexSet.mem s.publication.replay e.index = true
  rw [PointTable.own?_index he]
  exact (IndexSet.mem_members _ j).1 hj

/-- A declined RESEND leaves nothing in the Replay Set: each of its members has a published value to carry. -/
theorem State.replay_eq_zero_of_resendItems {s : State} (h : s.publishing.Held) (hnil : s.resendItems = []) :
    s.publication.replay = 0 := by
  have hnone := (fitting_eq_nil (by decide)).1 hnil
  refine IndexSet.ext fun i => (Bool.eq_false_iff.2 fun hi => ?_).trans (IndexSet.mem_zero i).symm
  obtain ⟨e, he, rfl, hsome⟩ := (h.published i).1 (h.replay i hi)
  obtain ⟨p, hp⟩ := Option.ne_none_iff_exists'.1 hsome
  have hfind : s.points.own? e.index = some e := tableFind_of_mem h.ownSorted he
  have hitem : (s.points.own? e.index).bind OwnEntry.replayItem = some ⟨e.index, e.size, p.version, p.value⟩ := by
    rw [hfind, Option.bind_some, OwnEntry.replayItem, hp]
    rfl
  have hmem := (List.mem_filterMap (f := fun i => (s.points.own? i).bind OwnEntry.replayItem)).2 ⟨e.index, (IndexSet.mem_members _ _).2 hi, hitem⟩
  rw [hnone] at hmem
  cases hmem

/-- A declined ROUTINE UPDATE leaves nothing in the Publish Set. -/
theorem State.publishSet_eq_nil_of_routineItems {s : State} (hdeclared : ∀ i ∈ s.publication.publishSet, i ∈ s.points.declared)
    (hnil : s.routineItems = []) : s.publication.publishSet = [] := by
  have hnone := (fitting_eq_nil (by decide)).1 hnil
  rw [← State.snapshots_index hdeclared, hnone]
  rfl

namespace PublishingView.WantsHeld

variable {v : PublishingView}

theorem fresh (declarations : List Declaration) (own : List OwnEntry) :
    (PublishingView.fresh declarations own).WantsHeld := ⟨rfl, rfl, nofun⟩

theorem written (h : v.WantsHeld) {i : Index} {e : OwnEntry} (he : v.urgent i = e.urgent) (value : List Byte) :
    { v with
      own := v.own.map (OwnEntry.written i value)
      publishSet := appendIndex v.publishSet i
      alarm := v.alarm || e.urgent
      routine := v.round.isOpen }.WantsHeld := by
  have hset : (appendIndex v.publishSet i).isEmpty = false :=
    List.isEmpty_eq_false_iff.2 (List.ne_nil_of_mem (mem_appendIndex.2 (.inr rfl)))
  refine ⟨?_, h.resend, fun halarm => ?_⟩
  · show v.round.isOpen = (v.round.isOpen && !(appendIndex v.publishSet i).isEmpty)
    rw [hset, Bool.not_false, Bool.and_true]
  · rw [PublishingView.urgent_map rfl (OwnEntry.written_index i value) (OwnEntry.written_urgent i value)]
    rcases Bool.or_eq_true_iff.1 halarm with halarm | hurgent
    · obtain ⟨j, hj, hurgent⟩ := List.any_eq_true.1 (h.alarm halarm)
      exact List.any_eq_true.2 ⟨j, mem_appendIndex.2 (.inl hj), hurgent⟩
    · exact List.any_eq_true.2 ⟨i, mem_appendIndex.2 (.inr rfl), he.trans hurgent⟩

end PublishingView.WantsHeld

/-! ### What waits -/

/-- No own value is forgotten (R30, R37): one that is not published waits or is in flight, and a snapshot in flight is
the current value unless the index waits again. -/
structure PublishingView.Remembers (v : PublishingView) : Prop where
  waits : ∀ e ∈ v.own, e.published.map Published.value ≠ some e.current →
    e.index ∈ v.publishSet ∨ e.index ∈ v.flightItems.map Item.index
  snapshots : ∀ i ∈ v.flightItems, ∀ e ∈ v.own, e.index = i.index → e.current ≠ i.value → i.index ∈ v.publishSet

theorem State.publishing_remembers_iff (s : State) : s.publishing.Remembers ↔ s.nothingForgotten := by
  constructor
  · intro h
    exact ⟨fun e he hne => (Publication.waiting_iff _ _).2 (h.waits e he hne), h.snapshots⟩
  · rintro ⟨hwaits, hsnapshots⟩
    exact ⟨fun e he hne => (Publication.waiting_iff _ _).1 (hwaits e he hne), hsnapshots⟩

namespace PublishingView.Remembers

variable {v : PublishingView}

theorem fresh (declarations : List Declaration) (own : List OwnEntry) :
    (PublishingView.fresh declarations own).Remembers :=
  ⟨fun _ he _ => .inl (List.mem_map_of_mem he), nofun⟩

theorem written (h : v.Remembers) (i : Index) (value : List Byte) (alarm routine : Bool) :
    { v with
      own := v.own.map (OwnEntry.written i value)
      publishSet := appendIndex v.publishSet i
      alarm := alarm
      routine := routine }.Remembers := by
  refine ⟨fun y hy hne => ?_, fun j hj y hy hindex hne => mem_appendIndex.2 ?_⟩
  · obtain ⟨e, he, rfl⟩ := List.mem_map.1 hy
    by_cases hi : e.index = i
    · rw [OwnEntry.written_index]
      exact .inl (mem_appendIndex.2 (.inr hi))
    · rw [OwnEntry.written, if_neg hi] at hne ⊢
      exact (h.waits e he hne).imp_left fun hmem => mem_appendIndex.2 (.inl hmem)
  · obtain ⟨e, he, rfl⟩ := List.mem_map.1 hy
    rw [OwnEntry.written_index] at hindex
    by_cases hi : e.index = i
    · exact .inr (hindex.symm.trans hi)
    · rw [OwnEntry.written, if_neg hi] at hne
      exact .inl (h.snapshots j hj e he hindex hne)

/-- A started UPDATE carries the current values, and what it takes from the set it has in flight (R36, R37). -/
theorem startUpdate (h : v.Remembers) (hheld : v.Held) (hidle : v.flight = none) {alarm : Bool} {sequence : Byte}
    {items : List Item} (hitems : ∀ i ∈ items, ∃ e ∈ v.own, i = e.snapshot) (routine alarmWant : Bool) :
    { v with
      publishSet := withoutCarried v.publishSet items
      flight := some ⟨alarm, sequence, items⟩
      routine := routine
      alarm := alarmWant }.Remembers := by
  refine ⟨fun e he hne => ?_, fun i hi e he hindex hne => ?_⟩
  · rcases h.waits e he hne with hmem | hmem
    · by_cases hcarried : e.index ∈ items.map Item.index
      · exact .inr hcarried
      · exact .inl (mem_withoutCarried.2 ⟨hmem, hcarried⟩)
    · rw [PublishingView.flightItems, hidle] at hmem
      cases hmem
  · obtain ⟨x, hx, rfl⟩ := hitems i hi
    exact absurd (congrArg OwnEntry.current (hheld.own_unique he hx hindex)) hne

theorem returnUpdate (h : v.Remembers) {f : UpdateFlight} (hf : v.flight = some f) (routine alarm : Bool) :
    { v with publishSet := v.returnedSet f, flight := none, routine := routine, alarm := alarm }.Remembers := by
  refine ⟨fun e he hne => .inl (List.mem_append.2 ?_), nofun⟩
  by_cases hcarried : e.index ∈ f.items.map Item.index
  · exact .inl hcarried
  · rcases h.waits e he hne with hmem | hmem
    · exact .inr (mem_withoutCarried.2 ⟨hmem, hcarried⟩)
    · rw [PublishingView.flightItems_some hf] at hmem
      exact .inl hmem

/-- A completed UPDATE publishes the snapshots; a point written during the flight waits in the set (R37, R38). -/
theorem completed (h : v.Remembers) (hheld : v.Held) {f : UpdateFlight} (hf : v.flight = some f) :
    (v.completed f).Remembers := by
  have hitems := PublishingView.flightItems_some hf
  have honce : (f.items.map Item.index).Nodup := by
    rw [← hitems]
    exact hheld.carriedOnce
  refine ⟨fun y hy hne => .inl ?_, nofun⟩
  obtain ⟨e, he, rfl⟩ := List.mem_map.1 hy
  rw [OwnEntry.publishedBy_index]
  by_cases hcarried : e.index ∈ f.items.map Item.index
  · obtain ⟨i, hi, hindex⟩ := List.mem_map.1 hcarried
    rw [OwnEntry.publishedBy_of_mem honce hi hindex] at hne
    rw [← hindex]
    exact h.snapshots i (by rw [hitems]; exact hi) e he hindex.symm fun hcurrent => hne (congrArg some hcurrent.symm)
  · rw [OwnEntry.publishedBy_of_not_mem hcarried] at hne
    rcases h.waits e he hne with hmem | hmem
    · exact hmem
    · rw [hitems] at hmem
      exact absurd hmem hcarried

end PublishingView.Remembers

/-- Each operation on the publication sets keeps them; it also keeps the wants, where they are right before, and the
memory of own values, where nothing is forgotten before. -/
theorem publication_law (wants memory : Prop) :
    PublicationLaw (fun s => s.publishing.Held ∧ (wants → s.publishing.WantsHeld) ∧
      (memory → s.publishing.Remembers)) where
  congr h heq := by rwa [heq]
  reset heq := by
    rw [heq, State.publishing_reset]
    exact ⟨.fresh .nil .nil nofun nofun nofun, fun _ => .fresh _ _, fun _ => .fresh _ _⟩
  declare _ hd h := ⟨h.1.declare hd, fun hw => { h.2.1 hw with }, fun hm => { h.2.2 hm with }⟩
  commitAll h := ⟨h.1.commit, fun _ => .fresh _ _, fun _ => .fresh _ _⟩
  writeOwn he hvalue h := by
    rw [State.publishing_writeOwn he]
    exact ⟨h.1.written (tableFind_mem he).1 (PointTable.own?_index he) hvalue _ _,
      fun hw => (h.2.1 hw).written (PointTable.urgent_of_own? he) _, fun hm => (h.2.2 hm).written _ _ _ _⟩
  rejoinNow h := ⟨{ h.1 with round := Nat.zero_le _ }, fun hw => { h.2.1 hw with routine := rfl },
    fun hm => { h.2.2 hm with }⟩
  restartAll h := ⟨h.1.restart, fun _ => .fresh _ _, fun _ => .fresh _ _⟩
  publishExpiry {s} h := by
    rw [State.publishing_publishExpiry]
    split
    next hopens =>
      refine ⟨{ h.1 with round := Nat.zero_le _ }, fun hw => { h.2.1 hw with routine := ?_ }, fun hm => { h.2.2 hm with }⟩
      show true = (true && !s.publishing.publishSet.isEmpty)
      rw [List.isEmpty_eq_false_iff.2 hopens.1]
      rfl
    next => exact h
  takeRequest wanted believed asked h := by
    rw [State.publishing_takeRequest]
    exact ⟨h.1.requested asked _, fun hw => { h.2.1 hw with resend := rfl }, fun hm => { h.2.2 hm with }⟩
  startUpdate hidle hitems honce hstart h := by
    rw [State.publishing_startUpdate hstart]
    exact ⟨h.1.startUpdate hitems honce _ _,
      fun hw => ⟨rfl, (h.2.1 hw).resend, fun halarm => (Bool.and_eq_true_iff.1 halarm).2⟩,
      fun hm => (h.2.2 hm).startUpdate h.1 hidle hitems _ _⟩
  startResend {s t f} hstart h := by
    obtain ⟨heq, hitems⟩ := State.publishing_startResend hstart
    rw [heq]
    refine ⟨h.1.startResend (fun i hi => ?_) _, fun hw => { h.2.1 hw with resend := ?_ }, fun hm => { h.2.2 hm with }⟩
    · obtain ⟨x, hx, rfl⟩ := List.mem_map.1 hi
      exact State.mem_resendItems hx
    · have hempty : (s.resendItems.map Item.index).isEmpty = false := by simpa using hitems
      show false = (_ && (s.resendItems.map Item.index).isEmpty)
      rw [hempty, Bool.and_false]
  decline {s w} hc h := by
    obtain ⟨hheld, hwants, hmemory⟩ := h
    cases w with
    | hello => cases hc
    | beacon => cases hc
    | ask => exact ⟨hheld, hwants, hmemory⟩
    | alarm => exact ⟨{ hheld with }, fun hw => { hwants hw with alarm := nofun }, fun hm => { hmemory hm with }⟩
    | routine =>
      have hnil := State.publishSet_eq_nil_of_routineItems hheld.declared (State.startUpdate_none.1 hc)
      refine ⟨{ hheld with }, fun hw => { hwants hw with routine := ?_ }, fun hm => { hmemory hm with }⟩
      show false = (s.publication.round.isOpen && !s.publication.publishSet.isEmpty)
      rw [hnil]
      exact (Bool.and_false _).symm
    | resend =>
      have hzero := State.replay_eq_zero_of_resendItems hheld (State.startResend_none.1 hc)
      refine ⟨{ hheld with }, fun hw => { hwants hw with resend := ?_ }, fun hm => { hmemory hm with }⟩
      show false = (s.publication.replay != 0 && s.publication.resendFlight.isEmpty)
      rw [hzero]
      rfl
  completeUpdate {s} h := by
    cases hf : s.publication.flight with
    | none =>
      rw [State.completeUpdate, hf]
      exact h
    | some f =>
      have honce : (f.items.map Item.index).Nodup := by
        rw [← PublishingView.flightItems_some (v := s.publishing) hf]
        exact h.1.carriedOnce
      rw [State.publishing_completeUpdate hf honce]
      refine ⟨h.1.completed hf, fun _ => ⟨rfl, rfl, fun halarm => ?_⟩, fun hm => (h.2.2 hm).completed h.1 hf⟩
      rw [PublishingView.urgent_map (v := s.publishing) rfl (OwnEntry.publishedBy_index _) (OwnEntry.publishedBy_urgent _)]
      exact halarm
  returnUpdate {s} h := by
    cases hf : s.publication.flight with
    | none =>
      rw [State.returnUpdate, hf]
      exact h
    | some f =>
      rw [State.publishing_returnUpdate hf]
      exact ⟨h.1.returnUpdate hf _ _, fun hw => ⟨rfl, (h.2.1 hw).resend, id⟩, fun hm => (h.2.2 hm).returnUpdate hf _ _⟩
  completeResend {s} h := by
    rw [State.publishing_completeResend]
    exact ⟨h.1.completeResend _, fun hw => { h.2.1 hw with resend := (Bool.and_true _).symm },
      fun hm => { h.2.2 hm with }⟩
  returnResend {s} h := by
    rw [State.publishing_returnResend]
    exact ⟨h.1.returnResend _, fun hw => { h.2.1 hw with resend := (Bool.and_true _).symm },
      fun hm => { h.2.2 hm with }⟩
  publishSet_nodup h := ⟨h.1.nodup, h.1.declared⟩

/-- Without a frame in flight the publication unit has no UPDATE in flight. -/
theorem State.flight_none_of_flightWf {s : State} (h : s.flightWf) (hidle : s.arbiter.inFlight = none) :
    s.publication.flight = none := by
  obtain ⟨_, _, _, _, _, _, hupdate, _⟩ := h
  refine Option.not_isSome_iff_eq_none.1 fun hsome => ?_
  have hsends := hupdate.1 hsome
  unfold Arbiter.sendsUpdate at hsends
  rw [hidle] at hsends
  rcases hsends with hsends | hsends
  · cases hsends
  · cases hsends

end Sys2Proof.Machine

open Sys2Proof Sys2Proof.Machine

/-- Settles O57: each operation on the publication sets and their wants keeps both, so every step does. -/
theorem stepKeepsPublicationAndWants : Obligations.StepKeepsPublicationAndWants := by
  intro s t hflight hpublication hwants hstep
  obtain ⟨hheld, hw, _⟩ := (publication_law True False).step
    ⟨(State.publishing_held_iff s).2 hpublication, fun _ => (State.publishing_wantsHeld_iff s).2 hwants, nofun⟩
    (State.flight_none_of_flightWf hflight) hstep
  exact ⟨(State.publishing_held_iff t).1 hheld, (State.publishing_wantsHeld_iff t).1 (hw trivial)⟩

/-- Settles O58: each operation on the publication sets forgets no own value, so no step does. -/
theorem stepForgetsNoOwnValue : Obligations.StepForgetsNoOwnValue := by
  intro s t hflight hpublication hforgotten hstep
  obtain ⟨_, _, hm⟩ := (publication_law False True).step
    ⟨(State.publishing_held_iff s).2 hpublication, nofun, fun _ => (State.publishing_remembers_iff s).2 hforgotten⟩
    (State.flight_none_of_flightWf hflight) hstep
  exact (State.publishing_remembers_iff t).1 (hm trivial)
end

section
/-! PROOFS. Frame in flight, assembly, station state and timers: what the invariants of files 06 to 09 speak of, and what
keeps them, as far as it is said of these fields alone. -/

namespace Sys2Proof.Machine

open Sys2Proof

/-! ### Timers -/

theorem Timer.fits_stopped (mayRun listening : Prop) : Timer.stopped.fits mayRun listening := ⟨nofun, nofun⟩

theorem Timer.fits_running {mayRun : Prop} (h : mayRun) (left : Nat) (listening : Prop) :
    (Timer.running left).fits mayRun listening := ⟨fun _ => h, nofun⟩

/-- A timer that is held or stopped at entry to LISTENING fits there. -/
theorem Timer.fits_hold (t : Timer) (mayRun : Prop) {listening : Prop} (h : listening) : t.hold.fits mayRun listening := by
  cases t with
  | running left => exact ⟨nofun, fun _ => h⟩
  | stopped | held left => exact ⟨nofun, fun _ => h⟩

theorem Timer.fits_tick {t : Timer} {mayRun listening : Prop} (h : t.fits mayRun listening) :
    t.tick.fits mayRun listening := by
  cases t with
  | running left => exact ⟨fun _ => h.1 rfl, nofun⟩
  | stopped | held left => exact h

theorem Timer.isHeld_resume (t : Timer) : t.resume.isHeld = false := by cases t <;> rfl

/-- A timer that is not held fits where it may run. -/
theorem Timer.fits_of_not_held {t : Timer} {mayRun : Prop} (h : mayRun) (listening : Prop) (ht : t.isHeld = false) :
    t.fits mayRun listening := ⟨fun _ => h, fun hheld => by rw [ht] at hheld; cases hheld⟩

/-- A timer that fits where it may neither run nor be held is stopped. -/
theorem Timer.eq_stopped_of_fits {t : Timer} {mayRun listening : Prop} (h : t.fits mayRun listening) (hrun : ¬mayRun)
    (hlisten : ¬listening) : t = .stopped := by
  cases t with
  | stopped => rfl
  | running left => exact absurd (h.1 rfl) hrun
  | held left => exact absurd (h.2 rfl) hlisten

/-! ### The view -/

/-- What the invariants of a frame in flight, of a frame under assembly and of the station state speak of. -/
structure StationView where
  port : Port
  assembly : Option Assembly
  condition : LineCondition
  drive : Drive
  early : EarlyInterval
  inFlight : Option Want
  failures : Nat
  state : StationState
  helloDone : Bool
  withdrawPending : Bool
  lineTroubleCount : Nat
  station : Option Station
  joinTimer : Timer
  helloHold : Timer
  publishTimer : Timer
  beaconTimer : Timer
  updating : Bool
  resending : Bool
  asking : Bool
  waits : List Timer

/-- The view of a state: of each owner, whether it holds a frame in flight, and of the records, their recall-wait
timers. -/
def State.stationView (s : State) : StationView where
  port := s.port
  assembly := s.frame.assembly
  condition := s.line.condition
  drive := s.line.drive
  early := s.line.early
  inFlight := s.arbiter.inFlight
  failures := s.arbiter.failures
  state := s.control.state
  helloDone := s.control.helloDone
  withdrawPending := s.control.withdrawPending
  lineTroubleCount := s.control.lineTroubleCount
  station := s.control.station
  joinTimer := s.control.joinTimer
  helloHold := s.control.helloHold
  publishTimer := s.publication.publishTimer
  beaconTimer := s.publication.beaconTimer
  updating := s.publication.flight.isSome
  resending := !s.publication.resendFlight.isEmpty
  asking := s.peers.asking.isSome
  waits := s.peers.records.map PeerRecord.recallWait

namespace StationView

/-- A frame under assembly (R119, R124, R131, R137, R143). -/
structure AssemblyHeld (v : StationView) : Prop where
  frames : ∀ a ∈ v.assembly, a.wf v.inFlight
  busy : v.assembly ≠ none → v.condition = .busy ∧ v.early = .none
  quiet : v.condition = .idle → v.early = .none
  unconfigured : v.state = .configuring → v.assembly = none

/-- The station state and its timers (R162, R166, R172 and the rules of each timer). -/
structure TimersHeld (v : StationView) : Prop where
  number : v.state ≠ .configuring → v.station ≠ none
  names : ∀ n ∈ v.station, namesStation n = true
  served : v.state = .inService → v.helloDone = true
  count : v.lineTroubleCount ≤ 31
  counting : v.lineTroubleCount ≠ 0 → v.state = .listening .lineTrouble
  join : v.joinTimer.fits (v.state = .joining ∧ v.helloDone = true) (v.state.isListening = true)
  hold : v.helloHold.fits (v.state.isActive ∧ v.helloDone = true) False
  publish : v.publishTimer.fits (v.state.isActive ∧ v.helloDone = true) (v.state.isListening = true)
  beacon : v.beaconTimer.fits (v.state.isActive ∧ v.helloDone = true) (v.state.isListening = true)
  waiting : ∀ t ∈ v.waits, t.fits v.state.isActive (v.state.isListening = true)

/-- Each owner holds the frame that is in flight, and no other (R37, R72, R90). -/
structure OwnersHold (flight : Option Want) (v : StationView) : Prop where
  updating : v.updating = (flight == some .alarm || flight == some .routine)
  resending : v.resending = (flight == some .resend)
  asking : v.asking = (flight == some .ask)

/-- The whole invariant, of a station whose port is `p` and which is in CONFIGURING exactly if `c`. -/
structure Held (p : Port) (c : Prop) (v : StationView) : Prop
    extends AssemblyHeld v, TimersHeld v, OwnersHold v.inFlight v where
  driven : v.inFlight = none ↔ v.drive = .idle
  active : v.inFlight ≠ none → v.state.isActive
  first : v.state = .joining → v.helloDone = false → v.inFlight = none ∨ v.inFlight = some .hello
  withdrawing : v.withdrawPending = true → v.inFlight ≠ none
  failed : v.failures ≤ 7
  port : v.port = p
  configuring : v.state = .configuring ↔ c

/-- A station in JOINING or IN_SERVICE whose arbiter has no frame in flight and whose driver drives nothing, while the
owners still hold `flight`; `n` consecutive failures are counted. -/
structure Grounded (p : Port) (c : Prop) (n : Nat) (flight : Option Want) (v : StationView) : Prop
    extends AssemblyHeld v, TimersHeld v, OwnersHold flight v where
  landed : v.inFlight = none
  still : v.drive = .idle
  active : v.state.isActive
  done : flight ≠ none → flight ≠ some .hello → v.helloDone = true
  counted : v.failures = n
  port : v.port = p
  configuring : v.state = .configuring ↔ c

end StationView

theorem Want.updating_iff (flight : Option Want) :
    (flight == some .alarm || flight == some .routine) = true ↔ flight = some .alarm ∨ flight = some .routine := by
  simp

/-- The invariant of a state. -/
def State.InOrder (s : State) : Prop := s.stationView.Held s.port (s.control.state = .configuring)

theorem State.inOrder_of_held {s : State} {p : Port} {c : Prop} (h : s.stationView.Held p c) : s.InOrder :=
  { h with port := rfl, configuring := Iff.rfl }

theorem State.inOrder_iff (s : State) : s.InOrder ↔ s.flightWf ∧ s.stationWf := by
  constructor
  · intro h
    refine ⟨⟨⟨h.frames, h.busy, h.quiet⟩, h.driven, h.active, h.first, h.withdrawing, h.failed, ?_, ?_, ?_⟩,
      h.number, h.names, h.unconfigured, h.served, h.count, h.counting, h.join, h.hold, h.publish, h.beacon, ?_⟩
    · exact (Bool.eq_iff_iff.1 h.updating).trans (Want.updating_iff _)
    · have hresend := Bool.eq_iff_iff.1 h.resending
      simpa [State.stationView] using hresend
    · exact (Bool.eq_iff_iff.1 h.asking).trans beq_iff_eq
    · exact fun r hr => h.waiting _ (List.mem_map_of_mem hr)
  · rintro ⟨⟨⟨hframes, hbusy, hquiet⟩, hdriven, hactive, hfirst, hwithdraw, hfailed, hupdate, hresend, hask⟩, hnumber,
      hnames, hunconfigured, hserved, hcount, hcounting, hjoin, hhold, hpublish, hbeacon, hrecall⟩
    refine { frames := hframes, busy := hbusy, quiet := hquiet, unconfigured := hunconfigured, number := hnumber,
             names := hnames, served := hserved, count := hcount, counting := hcounting, join := hjoin, hold := hhold,
             publish := hpublish, beacon := hbeacon, waiting := ?_, updating := ?_, resending := ?_, asking := ?_,
             driven := hdriven, active := hactive, first := hfirst, withdrawing := hwithdraw, failed := hfailed,
             port := rfl, configuring := Iff.rfl }
    · intro t ht
      obtain ⟨r, hr, rfl⟩ := List.mem_map.1 ht
      exact hrecall r hr
    · exact Bool.eq_iff_iff.2 (hupdate.trans (Want.updating_iff _).symm)
    · refine Bool.eq_iff_iff.2 ?_
      simpa [State.stationView] using hresend
    · exact Bool.eq_iff_iff.2 (hask.trans beq_iff_eq.symm)

namespace StationView

variable {p : Port} {c : Prop} {n : Nat} {flight : Option Want} {v : StationView}

/-! ### Cells -/

/-- An assembly without its mark stays in form when no frame is in flight any more. -/
theorem AssemblyHeld.frames_landed (h : v.AssemblyHeld) : ∀ a ∈ v.assembly, a.wf none := fun a ha =>
  ⟨(h.frames a ha).1, (h.frames a ha).2.1, fun _ hne => absurd rfl hne⟩

/-- A line event that leaves no frame under assembly. -/
theorem Held.clear (h : v.Held p c) (condition : LineCondition) (early : EarlyInterval)
    (hquiet : condition = .idle → early = .none) :
    { v with assembly := none, condition := condition, early := early }.Held p c :=
  { h with frames := nofun, busy := fun hne => absurd rfl hne, quiet := hquiet, unconfigured := fun _ => rfl }

theorem Held.finishAssembly (h : v.Held p c) (ha : v.assembly ≠ none) :
    { v with assembly := none, early := .waiting }.Held p c :=
  h.clear v.condition .waiting fun hidle => by
    rw [(h.busy ha).1] at hidle
    cases hidle

/-! ### Flights -/

/-- Nothing but HELLO is in flight before the HELLO has completed (R150). -/
theorem Held.done (h : v.Held p c) (hne : v.inFlight ≠ none) (hhello : v.inFlight ≠ some .hello) : v.helloDone = true := by
  rcases h.active hne with hjoining | hserving
  · refine Bool.eq_true_of_not_eq_false fun hnot => ?_
    rcases h.first hjoining hnot with hnone | hsome
    · exact hne hnone
    · exact hhello hsome
  · exact h.served hserving

/-- The flight ends, and its owner has still to take the report. -/
theorem Held.land (h : v.Held p c) (hne : v.inFlight ≠ none) (n : Nat) :
    { v with inFlight := none, drive := .idle, failures := n }.Grounded p c n v.inFlight :=
  { h with
    frames := h.frames_landed, landed := rfl, still := rfl, active := h.active hne
    done := h.done, counted := rfl }

/-- A station with no frame in flight in JOINING or IN_SERVICE. -/
theorem Held.grounded (h : v.Held p c) (hnone : v.inFlight = none) (hactive : v.state.isActive) :
    v.Grounded p c v.failures none :=
  { h with
    updating := by rw [← hnone]; exact h.updating
    resending := by rw [← hnone]; exact h.resending
    asking := by rw [← hnone]; exact h.asking
    landed := hnone, still := h.driven.1 hnone, active := hactive, done := fun hne => absurd rfl hne, counted := rfl }

/-- Without a pending withdraw the report of the end of a flight is all. -/
theorem Grounded.held (h : v.Grounded p c n none) (hn : n ≤ 7) (hw : v.withdrawPending = false) : v.Held p c :=
  { h with
    updating := by rw [h.landed]; exact h.updating
    resending := by rw [h.landed]; exact h.resending
    asking := by rw [h.landed]; exact h.asking
    driven := ⟨fun _ => h.still, fun _ => h.landed⟩
    active := fun _ => h.active
    first := fun _ _ => .inl h.landed
    withdrawing := fun hp => by rw [hw] at hp; cases hp
    failed := by rw [h.counted]; exact hn }

/-- Entry to LISTENING (R171). -/
theorem Grounded.listen (h : v.Grounded p c n none) (cause : Cause) :
    { v with
      state := .listening cause
      withdrawPending := false
      lineTroubleCount := 0
      joinTimer := v.joinTimer.hold
      helloHold := .stopped
      publishTimer := v.publishTimer.hold
      beaconTimer := v.beaconTimer.hold
      failures := 0
      waits := v.waits.map Timer.hold }.Held p c := by
  have hconfiguring : v.state ≠ .configuring := by
    intro hc
    rcases h.active with ha | ha
    · rw [hc] at ha
      cases ha
    · rw [hc] at ha
      cases ha
  exact
    { h with
      unconfigured := nofun
      number := fun _ => h.number hconfiguring
      served := nofun
      count := Nat.zero_le _
      counting := fun hne => absurd rfl hne
      join := Timer.fits_hold _ _ rfl
      hold := Timer.fits_stopped _ _
      publish := Timer.fits_hold _ _ rfl
      beacon := Timer.fits_hold _ _ rfl
      waiting := fun t ht => by
        obtain ⟨x, _, rfl⟩ := List.mem_map.1 ht
        exact Timer.fits_hold _ _ rfl
      updating := by rw [show v.inFlight = none from h.landed]; exact h.updating
      resending := by rw [show v.inFlight = none from h.landed]; exact h.resending
      asking := by rw [show v.inFlight = none from h.landed]; exact h.asking
      driven := ⟨fun _ => h.still, fun _ => h.landed⟩
      active := fun hne => absurd h.landed hne
      first := nofun
      withdrawing := nofun
      failed := Nat.zero_le _
      configuring := ⟨nofun, fun hc => absurd (h.configuring.2 hc) hconfiguring⟩ }

/-- A station that listens has no frame in flight. -/
theorem Held.landed_of_listening (h : v.Held p c) (hl : v.state.isListening = true) : v.inFlight = none := by
  by_contra hne
  rcases h.active hne with ha | ha
  · rw [ha] at hl
    cases hl
  · rw [ha] at hl
    cases hl

/-- LISTENING for another cause (R173). -/
theorem Held.relisten (h : v.Held p c) (hl : v.state.isListening = true) (cause : Cause) :
    { v with lineTroubleCount := 0, state := .listening cause }.Held p c := by
  have hlanded := h.landed_of_listening hl
  have hinactive : ¬v.state.isActive := by
    rintro (ha | ha)
    · rw [ha] at hl
      cases hl
    · rw [ha] at hl
      cases hl
  have hconfiguring : v.state ≠ .configuring := by
    intro hc
    rw [hc] at hl
    cases hl
  exact
    { h with
      unconfigured := nofun
      number := fun _ => h.number hconfiguring
      served := nofun
      count := Nat.zero_le _
      counting := fun hne => absurd rfl hne
      join := ⟨fun hr => absurd (.inl (h.join.1 hr).1) hinactive, fun _ => rfl⟩
      hold := ⟨fun hr => absurd (h.hold.1 hr).1 hinactive, h.hold.2⟩
      publish := ⟨fun hr => absurd (h.publish.1 hr).1 hinactive, fun _ => rfl⟩
      beacon := ⟨fun hr => absurd (h.beacon.1 hr).1 hinactive, fun _ => rfl⟩
      waiting := fun t ht => ⟨fun hr => absurd ((h.waiting t ht).1 hr) hinactive, fun _ => rfl⟩
      active := fun hne => absurd hlanded hne
      first := nofun
      configuring := ⟨nofun, fun hc => absurd (h.configuring.2 hc) hconfiguring⟩ }

/-- The start of a frame (R151). -/
theorem Held.launch (h : v.Held p c) {w : Want} (frame : WireFrame) (hactive : v.state.isActive)
    (hidle : v.condition = .idle) (hdone : w = .hello ∨ v.state = .inService ∨ v.helloDone = true)
    {updating resending asking : Bool} (howners : { v with
      updating := updating, resending := resending, asking := asking }.OwnersHold (some w)) :
    { v with
      updating := updating
      resending := resending
      asking := asking
      inFlight := some w
      drive := .sending frame }.Held p c := by
  have hnone : v.assembly = none := by
    by_contra hne
    have hbusy := (h.busy hne).1
    rw [hidle] at hbusy
    cases hbusy
  exact
    { h with
      frames := fun a ha => by
        rw [show v.assembly = some a from ha] at hnone
        cases hnone
      updating := howners.updating
      resending := howners.resending
      asking := howners.asking
      driven := ⟨nofun, nofun⟩
      active := fun _ => hactive
      first := fun hjoining hnot => by
        rcases hdone with rfl | hserving | hdone
        · exact .inr rfl
        · rw [show v.state = .joining from hjoining] at hserving
          cases hserving
        · rw [show v.helloDone = false from hnot] at hdone
          cases hdone
      withdrawing := nofun }

/-! ### Station states -/

/-- The entry to IN_SERVICE, from a join window or from LISTENING(LINE_TROUBLE): no timer is held any more. -/
theorem Held.serve (h : v.Held p c) (hstate : v.state = .joining ∨ v.state.isListening = true)
    {publish beacon : Timer} {waits : List Timer}
    (hpublish : publish.isHeld = false) (hbeacon : beacon.isHeld = false) (hwaits : ∀ t ∈ waits, t.isHeld = false)
    {count : Nat} (hcount : count = 0) {done : Bool} (hdone : done = true) :
    { v with
      lineTroubleCount := count
      joinTimer := .stopped
      helloDone := done
      publishTimer := publish
      beaconTimer := beacon
      waits := waits
      state := .inService }.Held p c := by
  have hconfiguring : v.state ≠ .configuring := by
    intro hc
    rw [hc] at hstate
    rcases hstate with hstate | hstate
    · cases hstate
    · cases hstate
  exact
    { h with
      unconfigured := nofun
      number := fun _ => h.number hconfiguring
      served := fun _ => hdone
      count := by rw [hcount]; exact Nat.zero_le _
      counting := fun hne => absurd hcount hne
      join := Timer.fits_stopped _ _
      hold := ⟨fun _ => ⟨.inr rfl, hdone⟩, h.hold.2⟩
      publish := Timer.fits_of_not_held ⟨.inr rfl, hdone⟩ _ hpublish
      beacon := Timer.fits_of_not_held ⟨.inr rfl, hdone⟩ _ hbeacon
      waiting := fun t ht => Timer.fits_of_not_held (.inr rfl) _ (hwaits t ht)
      active := fun _ => .inr rfl
      first := nofun
      configuring := ⟨nofun, fun hc => absurd (h.configuring.2 hc) hconfiguring⟩ }

/-- A station that has just entered JOINING: nothing of the station it was before is in flight, counted or timed (R166,
R174, R175). -/
structure Begun (p : Port) (v : StationView) : Prop extends AssemblyHeld v, OwnersHold none v where
  joins : v.state = .joining
  unsaid : v.helloDone = false
  number : v.station ≠ none
  names : ∀ n ∈ v.station, namesStation n = true
  uncounted : v.lineTroubleCount = 0
  join : v.joinTimer = .stopped
  hold : v.helloHold = .stopped
  publish : v.publishTimer = .stopped
  beacon : v.beaconTimer = .stopped
  waiting : ∀ t ∈ v.waits, t = .stopped
  landed : v.inFlight = none
  still : v.drive = .idle
  kept : v.withdrawPending = false
  failed : v.failures ≤ 7
  port : v.port = p

theorem Begun.held (h : v.Begun p) : v.Held p False :=
  { h with
    number := fun _ => h.number
    served := fun hserving => by
      rw [h.joins] at hserving
      cases hserving
    count := h.uncounted.trans_le (Nat.zero_le _)
    counting := fun hne => absurd h.uncounted hne
    join := h.join ▸ Timer.fits_stopped _ _
    hold := h.hold ▸ Timer.fits_stopped _ _
    publish := h.publish ▸ Timer.fits_stopped _ _
    beacon := h.beacon ▸ Timer.fits_stopped _ _
    waiting := fun t ht => h.waiting t ht ▸ Timer.fits_stopped _ _
    updating := by rw [h.landed]; exact h.updating
    resending := by rw [h.landed]; exact h.resending
    asking := by rw [h.landed]; exact h.asking
    driven := ⟨fun _ => h.still, fun _ => h.landed⟩
    active := fun _ => .inl h.joins
    first := fun _ _ => .inl h.landed
    withdrawing := fun hw => by
      rw [h.kept] at hw
      cases hw
    configuring := iff_of_false (fun hc => by
      rw [h.joins] at hc
      cases hc) id }

/-- In CONFIGURING and in LISTENING nothing is in flight, no withdraw is pending, and no timer runs. -/
theorem Held.resting (h : v.Held p c) (hrest : ¬v.state.isActive) :
    v.inFlight = none ∧ v.withdrawPending = false ∧ v.helloHold = .stopped := by
  have hlanded : v.inFlight = none := by
    by_contra hne
    exact hrest (h.active hne)
  refine ⟨hlanded, Bool.eq_false_iff.2 fun hw => h.withdrawing hw hlanded, ?_⟩
  exact Timer.eq_stopped_of_fits h.hold (fun hr => hrest hr.1) id

end StationView

end Sys2Proof.Machine
end

section
/-! PROOFS. Every step keeps flight, assembly, station state, timers and the class of a collected command in agreement:
each event on the view of a state, and O56. -/

namespace Sys2Proof.Machine

open Sys2Proof

/-! ### Cells of a frame -/

/-- After the arbitration field the mark says whether an own frame is in flight (R124). -/
theorem State.own_of_cellsTaken {s : State} {a : Assembly} {cells : List Level} (h : a.wf s.arbiter.inFlight)
    (hlong : 11 ≤ a.bits.length + cells.length) (hne : s.arbiter.inFlight ≠ none) : (s.cellsTaken a cells).own = true := by
  rw [State.cellsTaken_eq]
  dsimp only
  split
  · exact Option.isSome_iff_ne_none.2 hne
  next hnot => exact h.2.2 (by omega) hne

theorem State.wf_cellsTaken {s : State} {a : Assembly} {cells : List Level} (h : a.wf s.arbiter.inFlight)
    (hu : unfinished (s.cellsTaken a cells).bits = true) : (s.cellsTaken a cells).wf s.arbiter.inFlight := by
  have hlength : (s.cellsTaken a cells).bits.length = a.bits.length + cells.length := by
    rw [State.cellsTaken_eq]
    simp
  refine ⟨hu, fun hown => ?_, fun hlong hne => State.own_of_cellsTaken h (by omega) hne⟩
  rw [hlength]
  rw [State.cellsTaken_eq] at hown
  dsimp only at hown
  split at hown
  next hfield => exact hfield.2
  next => exact (h.2.1 hown).trans (Nat.le_add_right _ _)

theorem finished_length {bits : List Bool} (h : finished bits = true) : 32 ≤ bits.length := by
  unfold finished frameBits? at h
  split at h
  · cases h
  · have hlength : 32 + 8 * leadLength (leadOfBits bits) = bits.length := by simpa using h
    omega

theorem stationArg_names : ∀ b : Byte, (stationArg b).all namesStation = true := by decide

/-- A recall-wait timer started now fits the station state after COMMIT (R76, R80). -/
theorem State.fits_recallStart {s : State} (h : s.control.state ≠ .configuring) :
    s.recallStart.fits s.control.state.isActive (s.control.state.isListening = true) := by
  unfold State.recallStart
  split
  next hl => exact ⟨nofun, fun _ => hl⟩
  next hl =>
    refine Timer.fits_running ?_ _ _
    cases hstate : s.control.state with
    | configuring => exact absurd hstate h
    | joining => exact .inl rfl
    | inService => exact .inr rfl
    | listening cause =>
      rw [hstate] at hl
      exact absurd rfl hl

/-! ### What events do to the view -/

/-- An event of the peer unit changes, of the view, the recall-wait timers alone. -/
theorem State.stationView_of_peerSide {s t : State} {P : Timer → Prop} {wants : Wants} (h : PeerSide s t)
    (hw : t.WaitsHeld P s.peers.asking.isSome wants) :
    t.stationView = { s.stationView with waits := t.peers.records.map PeerRecord.recallWait } := by
  have hcontrol : ∀ {α : Type} (g : Control → α), g { t.control with faults := s.control.faults } = g s.control :=
    fun g => congrArg g h.control
  have harbiter : ∀ {α : Type} (g : Arbiter → α), g { t.arbiter with wants := s.arbiter.wants } = g s.arbiter :=
    fun g => congrArg g h.arbiter
  have hinFlight := harbiter Arbiter.inFlight
  have hfailures := harbiter Arbiter.failures
  have hdone := hcontrol Control.helloDone
  have hpending := hcontrol Control.withdrawPending
  have hcount := hcontrol Control.lineTroubleCount
  have hstation := hcontrol Control.station
  have hjoin := hcontrol Control.joinTimer
  have hhold := hcontrol Control.helloHold
  simp only at hinFlight hfailures hdone hpending hcount hstation hjoin hhold
  unfold State.stationView
  rw [h.line, h.frame, h.publication, h.port, h.control_state, hw.marker, hinFlight, hfailures, hdone, hpending, hcount,
    hstation, hjoin, hhold]

theorem State.joinRecall_stationView (s : State) :
    s.joinRecall.stationView =
      { s.stationView with waits := s.joinRecall.peers.records.map PeerRecord.recallWait } := by
  obtain ⟨u, hside, hu⟩ := PeerSide.joinRecall s
  have hwaits := s.waitsHeld_true.joinRecall
  rw [hu] at hwaits ⊢
  exact (State.stationView_of_peerSide hside (hwaits.congr (t := u) rfl rfl rfl) :)

theorem State.publishExpiry_stationView (s : State) : s.publishExpiry.stationView = s.stationView := by
  unfold State.publishExpiry
  split <;> rfl

theorem State.writeOwn_stationView (s : State) (i : Index) (value : List Byte) :
    (s.writeOwn i value).stationView = s.stationView := by
  unfold State.writeOwn
  dsimp only
  split <;> rfl

theorem State.takeRequest_stationView (s : State) (wanted : Bool) (believed : Byte) (asked : IndexSet) :
    (s.takeRequest wanted believed asked).stationView = s.stationView := by
  unfold State.takeRequest
  dsimp only
  split <;> rfl

/-- Of the view, the exit from LISTENING(LINE_TROUBLE) changes the count, the HELLO done mark, the state and the timers,
none of which it leaves held (R172). -/
theorem State.troubleExit_stationView (s : State) :
    ∃ publish beacon waits, s.troubleExit.stationView = { s.stationView with
        lineTroubleCount := 0
        joinTimer := .stopped
        helloDone := true
        publishTimer := publish
        beaconTimer := beacon
        waits := waits
        state := .inService } ∧
      publish.isHeld = false ∧ beacon.isHeld = false ∧ ∀ t ∈ waits, t.isHeld = false := by
  have hjoin : ∀ u : State, u.stationView.publishTimer.isHeld = false → u.stationView.beaconTimer.isHeld = false →
      (∀ t ∈ u.stationView.waits, t.isHeld = false) → ∀ windowOpen : Bool,
      ∃ waits, ((if windowOpen then u.joinRecall else u).raiseBeacon.enter .inService).stationView =
          { u.stationView with waits := waits, state := .inService } ∧ ∀ t ∈ waits, t.isHeld = false := by
    intro u _ _ hwaits windowOpen
    cases windowOpen with
    | false => exact ⟨u.stationView.waits, rfl, hwaits⟩
    | true =>
      have hheld : u.WaitsHeld (fun t => t.isHeld = false) u.peers.asking.isSome u.arbiter.wants :=
        ⟨rfl, fun r hr => hwaits _ (List.mem_map_of_mem hr), rfl, rfl⟩
      refine ⟨u.joinRecall.peers.records.map PeerRecord.recallWait,
        congrArg (fun v : StationView => { v with state := .inService }) u.joinRecall_stationView, fun t ht => ?_⟩
      obtain ⟨r, hr, rfl⟩ := List.mem_map.1 ht
      exact hheld.joinRecall.waits r hr
  have hresumed : ∀ t ∈ (s.peers.mapWaits Timer.resume).records.map PeerRecord.recallWait, t.isHeld = false := by
    intro t ht
    obtain ⟨r, hr, rfl⟩ := List.mem_map.1 ht
    obtain ⟨x, _, rfl⟩ := List.mem_map.1 hr
    exact Timer.isHeld_resume _
  unfold State.troubleExit
  dsimp only
  cases s.control.helloDone with
  | true =>
    obtain ⟨waits, hview, hwaits⟩ := hjoin (((s.setControl { s.control with
      lineTroubleCount := 0, joinTimer := .stopped, helloDone := true }).setPublication s.publication.resume).setPeers
      (s.peers.mapWaits Timer.resume)) (Timer.isHeld_resume _) (Timer.isHeld_resume _) hresumed
      (s.control.joinTimer.isHeld || !true)
    exact ⟨_, _, waits, hview, Timer.isHeld_resume _, Timer.isHeld_resume _, hwaits⟩
  | false =>
    obtain ⟨waits, hview, hwaits⟩ := hjoin (((s.setControl { s.control with
      lineTroubleCount := 0, joinTimer := .stopped, helloDone := true }).setPublication s.publication.resume).setPeers
      (s.peers.mapWaits Timer.resume)).startPublishing (by rw [State.startPublishing, State.publishExpiry_stationView]; rfl)
      (by rw [State.startPublishing, State.publishExpiry_stationView]; rfl)
      (by rw [State.startPublishing, State.publishExpiry_stationView]; exact hresumed)
      (s.control.joinTimer.isHeld || !false)
    rw [State.startPublishing, State.publishExpiry_stationView] at hview
    exact ⟨_, _, waits, hview, rfl, rfl, hwaits⟩

theorem Drive.freed_idle_iff (d : Drive) : d.freed = .idle ↔ d = .idle := by cases d <;> simp [Drive.freed]

namespace State

variable {s t : State} {p : Port} {c : Prop} {n : Nat}

/-! ### The line and reception -/

theorem takeCells_held (h : s.stationView.Held p c) (cells : List Level) : (s.takeCells cells).stationView.Held p c := by
  have hcells : ∀ a ∈ s.frame.assembly.map (fun a =>
      if unfinished (s.cellsTaken a cells).bits then s.cellsTaken a cells else a), a.wf s.arbiter.inFlight := by
    intro a ha
    obtain ⟨x, hx, rfl⟩ := Option.map_eq_some_iff.1 ha
    split
    next hu => exact State.wf_cellsTaken (h.frames x hx) hu
    next => exact h.frames x hx
  have hnone : ∀ g : Assembly → Assembly, s.frame.assembly.map g ≠ none → s.frame.assembly ≠ none := by
    intro g hne hnone
    rw [hnone] at hne
    exact hne rfl
  rw [State.takeCells_eq]
  exact
    { h with
      frames := hcells
      busy := fun hne => h.busy (hnone _ hne)
      unconfigured := fun hc => congrArg (Option.map _) (h.unconfigured hc) }

theorem cutAssembly_held (h : s.stationView.Held p c) : s.cutAssembly.stationView.Held p c := by
  unfold State.cutAssembly
  split
  · exact h
  · exact h.clear s.line.condition s.line.early h.quiet

theorem cutAssembly_assembly (s : State) : s.cutAssembly.frame.assembly = none := by
  unfold State.cutAssembly
  split
  next h => exact h
  next => rfl

/-- The line condition changes where no frame is under assembly. -/
theorem setCondition_held (h : s.stationView.Held p c) (hnone : s.frame.assembly = none) {x : LineCondition}
    (hx : x ≠ .idle) : (s.setCondition x).stationView.Held p c :=
  { h with busy := fun hne => absurd hnone hne, quiet := fun hidle => absurd hidle hx }

theorem freeLine_held (h : s.stationView.Held p c) : s.freeLine.stationView.Held p c :=
  { cutAssembly_held h with
    busy := fun hne => absurd s.cutAssembly_assembly hne
    quiet := fun _ => rfl
    driven := (cutAssembly_held h).driven.trans (Drive.freed_idle_iff _).symm }

theorem assembly_none_of_condition (h : s.stationView.Held p c) (hx : s.line.condition ≠ .busy) :
    s.frame.assembly = none := by
  by_contra hne
  exact hx (h.busy hne).1

theorem lineBusy_held (h : s.stationView.Held p c) (hidle : s.line.condition = .idle)
    (hconfigured : s.control.state ≠ .configuring) (origin : Origin) :
    ((s.setCondition .busy).setAssembly (some ⟨[], false, origin⟩)).stationView.Held p c :=
  { h with
    frames := fun a ha => by
      cases ha
      exact ⟨rfl, nofun, nofun⟩
    busy := fun _ => ⟨rfl, h.quiet hidle⟩
    quiet := nofun
    unconfigured := fun hc => absurd hc hconfigured }

theorem earlyEdge_held (h : s.stationView.Held p c) (hwaiting : s.line.early = .waiting) (frame : FrameUnit)
    (hframe : frame.assembly = s.frame.assembly) :
    ((s.setLine { s.line with early := .seen }).setFrame frame).stationView.Held p c := by
  have hnone : s.frame.assembly = none := by
    by_contra hne
    have hearly := (h.busy hne).2
    rw [show s.stationView.early = .waiting from hwaiting] at hearly
    cases hearly
  exact
    { h with
      frames := fun a ha => h.frames a (by show a ∈ s.frame.assembly; rw [← hframe]; exact ha)
      busy := fun hne => absurd (hframe.trans hnone) hne
      quiet := fun hidle => by
        have hearly := h.quiet hidle
        rw [show s.stationView.early = .waiting from hwaiting] at hearly
        cases hearly
      unconfigured := fun _ => hframe.trans hnone }

/-- Without a frame in flight a station that is not in CONFIGURING and not in LISTENING enters LISTENING. -/
theorem enterListening_held (h : s.stationView.Grounded p c n none) (cause : Cause) :
    (s.enterListening cause).stationView.Held p c := by
  have hmap : (s.peers.mapWaits Timer.hold).records.map PeerRecord.recallWait =
      (s.peers.records.map PeerRecord.recallWait).map Timer.hold := by
    show (s.peers.records.map _).map _ = _
    rw [List.map_map, List.map_map]
    rfl
  have hview : (s.enterListening cause).stationView = { s.stationView with
      state := .listening cause
      withdrawPending := false
      lineTroubleCount := 0
      joinTimer := s.control.joinTimer.hold
      helloHold := .stopped
      publishTimer := s.publication.publishTimer.hold
      beaconTimer := s.publication.beaconTimer.hold
      failures := 0
      waits := s.stationView.waits.map Timer.hold } := by
    rw [State.enterListening_eq]
    unfold State.stationView
    dsimp only
    rw [hmap]
    rfl
  rw [hview]
  exact h.listen cause

theorem duplicateDetected_held (h : s.stationView.Held p c) (hlanded : s.arbiter.inFlight = none) :
    s.duplicateDetected.stationView.Held p c := by
  have hflag : (s.setFaults { s.control.faults with duplicate := true }).stationView.Held p c := { h with }
  unfold State.duplicateDetected
  dsimp only
  split
  next hstate => exact enterListening_held (hflag.grounded hlanded (.inl hstate)) .duplicate
  next hstate => exact enterListening_held (hflag.grounded hlanded (.inr hstate)) .duplicate
  next hstate => exact hflag.relisten (congrArg StationState.isListening hstate) .duplicate
  next hstate => exact hflag.relisten (congrArg StationState.isListening hstate) .duplicate
  · exact hflag
  · exact hflag

theorem peer_held (h : s.stationView.Held p c) (hside : PeerSide s t) {wants : Wants}
    (hw : t.WaitsHeld (fun x => x.fits s.control.state.isActive (s.control.state.isListening = true))
      s.peers.asking.isSome wants) : t.stationView.Held p c := by
  rw [State.stationView_of_peerSide hside hw]
  exact
    { h with
      waiting := fun x hx => by
        obtain ⟨r, hr, rfl⟩ := List.mem_map.1 hx
        exact hw.waits r hr }

theorem waitsHeld_of_held (h : s.stationView.Held p c) :
    s.WaitsHeld (fun x => x.fits s.control.state.isActive (s.control.state.isListening = true))
      s.peers.asking.isSome s.arbiter.wants :=
  ⟨Timer.fits_stopped _ _, fun _ hr => h.waiting _ (List.mem_map_of_mem hr), rfl, rfl⟩

theorem peerEvent_held (h : s.stationView.Held p False) (f : Frame) : (s.peerEvent f).stationView.Held p False :=
  peer_held h (.peerEvent s f) ((waitsHeld_of_held h).peerEvent (State.fits_recallStart h.configuring.1) f)

theorem controlEvent_held (h : s.stationView.Held p c) (f : Frame) : (s.controlEvent f).stationView.Held p c := by
  have hreport : ∀ u : State, u.stationView.Held p c → u.goodFrameReport.stationView.Held p c := by
    intro u hu
    unfold State.goodFrameReport
    split
    next hstate =>
      split
      next hcount => exact { hu with count := Nat.le_of_lt_succ hcount, counting := fun _ => hstate }
      next =>
        obtain ⟨publish, beacon, waits, hview, hpublish, hbeacon, hwaits⟩ := u.troubleExit_stationView
        rw [hview]
        exact hu.serve (.inr (congrArg StationState.isListening hstate)) hpublish hbeacon hwaits rfl rfl
    next => exact hu
  unfold State.controlEvent
  split
  · refine hreport _ ?_
    unfold State.takeHello
    split
    next hopen =>
      refine { h with hold := Timer.fits_running ?_ _ _ }
      rcases Bool.or_eq_true_iff.1 hopen with hopen | hserving
      · obtain ⟨hjoining, hdone⟩ := Bool.and_eq_true_iff.1 hopen
        exact ⟨.inl (eq_of_beq hjoining), hdone⟩
      · exact ⟨.inr (eq_of_beq hserving), h.served (eq_of_beq hserving)⟩
    next => exact h
  · exact hreport _ h

theorem publicationEvent_held (h : s.stationView.Held p c) (f : Frame) : (s.publicationEvent f).stationView.Held p c := by
  unfold State.publicationEvent
  split
  · split
    · rw [State.takeRequest_stationView]
      exact h
    · exact h
  all_goals exact h

theorem dispatchGood_held (h : s.stationView.Held p False) (f : Frame) : (s.dispatchGood f).stationView.Held p False := by
  have hfree : s.bumpFree.stationView.Held p False := h
  unfold State.dispatchGood
  refine publicationEvent_held ?_ f
  split
  · split
    · exact peerEvent_held (controlEvent_held hfree f) f
    · exact controlEvent_held (peerEvent_held hfree f) f
  · exact controlEvent_held (peerEvent_held h f) f

theorem judgeFrame_held (h : s.stationView.Held p False) (hlanded : s.arbiter.inFlight = none) (w : WireFrame) :
    (s.judgeFrame w).stationView.Held p False := by
  have hcounted : ∀ good check cut format,
      (s.setFrame ⟨s.frame.assembly, good, check, cut, format⟩).stationView.Held p False := fun _ _ _ _ => h
  unfold State.judgeFrame
  split
  · split
    · dsimp only
      split
      · exact duplicateDetected_held (hcounted _ _ _ _) hlanded
      · exact dispatchGood_held (hcounted _ _ _ _) _
    · exact hcounted _ _ _ _
  · exact hcounted _ _ _ _

/-- The end of a frame: no frame from another station ends during a flight (R124; log 7). -/
theorem frameEnd_held (h : s.stationView.Held p c) {a : Assembly} (ha : s.frame.assembly = some a) (cells : List Level)
    (hf : finished (s.cellsTaken a cells).bits = true) :
    (if (s.cellsTaken a cells).own then s.finishAssembly
      else s.finishAssembly.judgeFrame (wireOfBits (s.cellsTaken a cells).bits)).stationView.Held p c := by
  have hne : s.frame.assembly ≠ none := by
    rw [ha]
    exact nofun
  have hended : s.finishAssembly.stationView.Held p c := h.finishAssembly hne
  split
  next => exact hended
  next hown =>
    have hclass : c = False := eq_false fun hc => hne (h.unconfigured (h.configuring.2 hc))
    subst hclass
    refine judgeFrame_held hended ?_ _
    by_contra hflight
    have hlong := finished_length hf
    rw [State.cellsTaken_eq] at hlong
    simp only [List.length_append, List.length_map] at hlong
    exact hown (State.own_of_cellsTaken (h.frames a ha) (by omega) hflight)

/-! ### Transmission -/

theorem finishOwn_held (h : s.stationView.Held p c) : s.finishOwn.stationView.Held p c := by
  unfold State.finishOwn
  split
  next hend =>
    obtain ⟨_, hsome⟩ := Bool.and_eq_true_iff.1 hend
    exact h.finishAssembly (Option.isSome_iff_ne_none.1 hsome)
  next => exact h

/-- What an owner supplies it also holds from then on, and nothing else changes in the view. -/
theorem contents_stationView {w : Want} {f : Frame} (h : s.stationView.Held p c) (hidle : s.arbiter.inFlight = none)
    (hc : s.contents w = some (f, t)) :
    t.stationView = { s.stationView with
        updating := t.stationView.updating, resending := t.stationView.resending, asking := t.stationView.asking } ∧
      t.stationView.OwnersHold (some w) := by
  have hu : s.stationView.updating = false := by rw [h.updating, show s.stationView.inFlight = none from hidle]; rfl
  have hr : s.stationView.resending = false := by rw [h.resending, show s.stationView.inFlight = none from hidle]; rfl
  have ha : s.stationView.asking = false := by rw [h.asking, show s.stationView.inFlight = none from hidle]; rfl
  have hupdate : ∀ alarm items, (some w == some Want.alarm || some w == some Want.routine) = true →
      (some w == some Want.resend) = false → (some w == some Want.ask) = false →
      s.startUpdate alarm items = some (f, t) →
      t.stationView = { s.stationView with
        updating := t.stationView.updating, resending := t.stationView.resending, asking := t.stationView.asking } ∧
      t.stationView.OwnersHold (some w) := by
    intro alarm items hw hw' hw'' hstart
    have hitems : items ≠ [] := by
      intro hnil
      rw [State.startUpdate_none.2 hnil] at hstart
      cases hstart
    rw [State.startUpdate_some hitems] at hstart
    cases hstart
    exact ⟨rfl, hw.symm, hr.trans hw'.symm, ha.trans hw''.symm⟩
  cases w with
  | alarm => exact hupdate _ _ rfl rfl rfl hc
  | routine => exact hupdate _ _ rfl rfl rfl hc
  | hello =>
    cases hc
    exact ⟨rfl, hu, hr, ha⟩
  | beacon =>
    cases hc
    exact ⟨rfl, hu, hr, ha⟩
  | ask =>
    simp only [State.contents, State.startAsk] at hc
    split at hc
    · cases hc
    · cases hc
      exact ⟨rfl, hu, hr, rfl⟩
  | resend =>
    have hitems : s.resendItems ≠ [] := by
      intro hnil
      rw [State.contents, State.startResend_none.2 hnil] at hc
      cases hc
    rw [State.contents, State.startResend_some hitems] at hc
    cases hc
    refine ⟨rfl, hu, ?_, ha⟩
    show (!(s.resendItems.map Item.index).isEmpty) = true
    simpa using hitems

theorem startFirst_held (h : s.stationView.Held p c) (hmay : s.mayTransmit = true) (wants : List Want) :
    (s.startFirst wants).stationView.Held p c := by
  induction wants generalizing s with
  | nil => exact h
  | cons w rest ih =>
    unfold State.startFirst
    split
    next hoffered =>
      split
      next f t hc =>
        obtain ⟨hactive, _, hidle, hnone⟩ := (State.mayTransmit_iff s).1 hmay
        obtain ⟨hview, howners⟩ := contents_stationView h hnone hc
        have hdone : w = .hello ∨ s.control.state = .inService ∨ s.control.helloDone = true := by
          have hoffer := (Bool.and_eq_true_iff.1 hoffered).2
          simpa [State.offered, or_assoc] using hoffer
        have hlaunched := h.launch f.toWire hactive hidle hdone (by rw [← hview]; exact howners)
        have hlaunch : (t.launch w f).stationView =
            { t.stationView with inFlight := some w, drive := .sending f.toWire } := rfl
        rw [hlaunch, hview]
        exact hlaunched
      next => exact ih (s := s.setWant w false) h hmay
    next => exact ih h hmay

theorem ownerCompleted_grounded {w : Want} (h : s.stationView.Grounded p c n (some w)) :
    (s.ownerCompleted w).stationView.Grounded p c n none := by
  have hupdate : (some w == some Want.alarm || some w == some Want.routine) = true → w ≠ .hello →
      (some w == some Want.resend) = false → (some w == some Want.ask) = false →
      s.completeUpdate.stationView.Grounded p c n none := by
    intro hw hhello hw' hw''
    obtain ⟨f, hf⟩ := Option.isSome_iff_exists.1 (h.updating.trans hw)
    unfold State.completeUpdate
    rw [hf]
    exact
      { h with
        beacon := Timer.fits_running ⟨h.active, h.done nofun fun he => hhello (Option.some.inj he)⟩ _ _
        updating := rfl
        resending := h.resending.trans hw'
        asking := h.asking.trans hw''
        done := fun hne => absurd rfl hne }
  cases w with
  | alarm => exact hupdate rfl nofun rfl rfl
  | routine => exact hupdate rfl nofun rfl rfl
  | hello =>
    show s.completeHello.stationView.Grounded p c n none
    unfold State.completeHello
    dsimp only
    split
    next hjoining =>
      rw [State.startPublishing, State.publishExpiry_stationView]
      exact
        { h with
          served := fun _ => rfl
          join := Timer.fits_running ⟨hjoining, rfl⟩ _ _
          hold := ⟨fun hr => ⟨(h.hold.1 hr).1, rfl⟩, h.hold.2⟩
          publish := Timer.fits_running ⟨h.active, rfl⟩ _ _
          beacon := Timer.fits_running ⟨h.active, rfl⟩ _ _
          done := fun hne => absurd rfl hne }
    next hjoining =>
      have hserving : s.control.state = .inService := h.active.resolve_left hjoining
      exact
        { h with
          beacon := Timer.fits_running ⟨h.active, h.served hserving⟩ _ _
          done := fun hne => absurd rfl hne }
  | ask =>
    have hstart : s.recallStart = .running s.control.timing.recallFull := by
      unfold State.recallStart
      rcases h.active with hstate | hstate
      · rw [show s.control.state = .joining from hstate]
        rfl
      · rw [show s.control.state = .inService from hstate]
        rfl
    obtain ⟨a, ha⟩ := Option.isSome_iff_exists.1 (show s.peers.asking.isSome = true from h.asking)
    show s.completeAsk.stationView.Grounded p c n none
    unfold State.completeAsk
    rw [ha]
    dsimp only
    split
    · exact
        { h with
          waiting := fun t ht => by
            obtain ⟨r, hr, rfl⟩ := List.mem_map.1 ht
            obtain ⟨x, hx, rfl⟩ := List.mem_map.1 hr
            split
            · show s.recallStart.fits _ _
              rw [hstart]
              exact Timer.fits_running h.active _ _
            · exact h.waiting _ (List.mem_map_of_mem hx)
          asking := rfl
          done := fun hne => absurd rfl hne }
    · exact { h with asking := rfl, done := fun hne => absurd rfl hne }
  | beacon =>
    exact
      { h with
        beacon := Timer.fits_running ⟨h.active, h.done nofun nofun⟩ _ _
        done := fun hne => absurd rfl hne }
  | resend => exact { h with resending := rfl, done := fun hne => absurd rfl hne }

theorem ownerReturned_grounded {w : Want} (h : s.stationView.Grounded p c n (some w)) :
    (s.ownerReturned w).stationView.Grounded p c n none := by
  have hupdate : (some w == some Want.alarm || some w == some Want.routine) = true →
      (some w == some Want.resend) = false → (some w == some Want.ask) = false →
      s.returnUpdate.stationView.Grounded p c n none := by
    intro hw hw' hw''
    obtain ⟨f, hf⟩ := Option.isSome_iff_exists.1 (h.updating.trans hw)
    unfold State.returnUpdate
    rw [hf]
    exact
      { h with
        updating := rfl
        resending := h.resending.trans hw'
        asking := h.asking.trans hw''
        done := fun hne => absurd rfl hne }
  cases w with
  | alarm => exact hupdate rfl rfl rfl
  | routine => exact hupdate rfl rfl rfl
  | hello => exact { h with done := fun hne => absurd rfl hne }
  | ask => exact { h with asking := rfl, done := fun hne => absurd rfl hne }
  | beacon => exact { h with done := fun hne => absurd rfl hne }
  | resend => exact { h with resending := rfl, done := fun hne => absurd rfl hne }

theorem endFlight_held (h : s.stationView.Grounded p c n none) (hn : n ≤ 7) : s.endFlight.stationView.Held p c := by
  unfold State.endFlight
  split
  next => exact enterListening_held h .command
  next hw => exact h.held hn (Bool.eq_false_iff.2 hw)

theorem takeCompleted_held (h : s.stationView.Held p c) {w : Want} (hw : s.arbiter.inFlight = some w) :
    (s.takeCompleted w).stationView.Held p c := by
  have hlanded := h.land (n := 0) (by rw [show s.stationView.inFlight = some w from hw]; exact nofun)
  rw [show s.stationView.inFlight = some w from hw] at hlanded
  have hcompleted := ownerCompleted_grounded (s := s.land.setArbiter { s.land.arbiter with failures := 0 }) hlanded
  exact endFlight_held hcompleted (Nat.zero_le _)

theorem takeLost_held (h : s.stationView.Held p c) {w : Want} (hw : s.arbiter.inFlight = some w) :
    (s.takeLost w).stationView.Held p c := by
  have hlanded := h.land (n := s.arbiter.failures) (by rw [show s.stationView.inFlight = some w from hw]; exact nofun)
  rw [show s.stationView.inFlight = some w from hw] at hlanded
  have hreturned := ownerReturned_grounded
    (s := s.land.setArbiter { s.land.arbiter with arbLost := Tally.rise s.land.arbiter.arbLost }) hlanded
  exact endFlight_held hreturned h.failed

theorem takeFailed_held (h : s.stationView.Held p c) {w : Want} (hw : s.arbiter.inFlight = some w) :
    (s.takeFailed w).stationView.Held p c := by
  have hlanded := h.land (n := s.arbiter.failures + 1) (by rw [show s.stationView.inFlight = some w from hw]; exact nofun)
  rw [show s.stationView.inFlight = some w from hw] at hlanded
  have hreturned := ownerReturned_grounded (s := s.land.setArbiter { s.land.arbiter with
    txFail := Tally.rise s.land.arbiter.txFail, failures := s.land.arbiter.failures + 1 }) hlanded
  unfold State.takeFailed
  dsimp only
  split
  next => exact enterListening_held { hreturned with } .lineTrouble
  next hfew =>
    refine endFlight_held hreturned ?_
    have hcounted : _ = s.arbiter.failures + 1 := hreturned.counted
    rw [← hcounted]
    exact Nat.le_of_lt_succ (Nat.not_le.1 hfew)

end State

end Sys2Proof.Machine
end

section
/-! PROOFS. Every step keeps flight, assembly, station state, timers and the class of a collected command in agreement:
the commands, and O56. -/

namespace Sys2Proof.Machine

open Sys2Proof

theorem CommandClass.opens_congr {a b : StationState} (h : a = .configuring ↔ b = .configuring) (c : CommandClass) :
    c.opens a = c.opens b := by
  cases c with
  | anyState => rfl
  | configuringOnly => exact Bool.eq_iff_iff.2 (beq_iff_eq.trans (h.trans beq_iff_eq.symm))
  | afterCommit => exact Bool.eq_iff_iff.2 (bne_iff_ne.trans ((not_congr h).trans bne_iff_ne.symm))

theorem Timer.drop_of_fits {t : Timer} {mayRun listening : Prop} (h : t.fits mayRun listening) (hrun : ¬mayRun) :
    t.drop = .stopped := by
  cases t with
  | stopped | held left => rfl
  | running left => exact absurd (h.1 rfl) hrun

theorem StationState.not_active_of_listening {st : StationState} (h : st.isListening = true) : ¬st.isActive := by
  rintro (ha | ha)
  · rw [ha] at h
    cases h
  · rw [ha] at h
    cases h

namespace State

variable {s t : State} {p : Port} {c : Prop}

/-! ### Owners' events of the commands -/

theorem commitAll_held (h : s.stationView.Held p c) (hconfiguring : s.control.state = .configuring)
    (hstation : s.control.station ≠ none) : s.commitAll.stationView.Held p False := by
  have hstate : s.stationView.state = .configuring := hconfiguring
  have hrest : ¬s.stationView.state.isActive := by
    rw [hstate]
    rintro (ha | ha)
    · cases ha
    · cases ha
  have hquiet : ¬s.stationView.state.isListening = true := by
    rw [hstate]
    exact nofun
  obtain ⟨hlanded, hkept, hhold⟩ := h.resting hrest
  refine StationView.Begun.held
    { h with
      joins := rfl, unsaid := rfl, number := hstation, landed := hlanded, still := h.driven.1 hlanded, kept := hkept
      hold := hhold, publish := rfl, beacon := rfl, updating := rfl, resending := rfl
      asking := h.asking.trans (by rw [hlanded])
      unconfigured := nofun
      uncounted := ?_
      join := Timer.eq_stopped_of_fits h.join (fun hr => hrest (.inl hr.1)) hquiet
      waiting := fun x hx => Timer.eq_stopped_of_fits (h.waiting x hx) hrest hquiet }
  by_contra hne
  have hcounting := h.counting hne
  rw [hstate] at hcounting
  cases hcounting

theorem rejoinNow_held (h : s.stationView.Held p c) (hlistening : s.control.state.isListening = true) :
    s.rejoinNow.stationView.Held p False := by
  have hrest : ¬s.stationView.state.isActive := StationState.not_active_of_listening hlistening
  obtain ⟨hlanded, hkept, hhold⟩ := h.resting hrest
  exact StationView.Begun.held
    { h with
      joins := rfl, unsaid := rfl, landed := hlanded, still := h.driven.1 hlanded, kept := hkept
      hold := hhold, publish := rfl, beacon := rfl, uncounted := rfl, join := rfl, failed := Nat.zero_le _
      updating := h.updating.trans (by rw [hlanded])
      resending := h.resending.trans (by rw [hlanded])
      asking := h.asking.trans (by rw [hlanded])
      unconfigured := nofun
      number := h.number fun hc => by
        rw [show s.control.state = .configuring from hc] at hlistening
        cases hlistening
      waiting := fun x hx => by
        obtain ⟨r, hr, rfl⟩ := List.mem_map.1 hx
        obtain ⟨y, hy, rfl⟩ := List.mem_map.1 hr
        exact Timer.drop_of_fits (h.waiting _ (List.mem_map_of_mem hy)) hrest }

theorem restartAll_held (h : s.stationView.Held p c) (hcommitted : s.control.state ≠ .configuring) :
    s.restartAll.stationView.Held p False := by
  have hkept : ∀ a ∈ s.restartAll.stationView.assembly, a ∈ s.stationView.assembly := fun a ha =>
    (Option.mem_filter_iff.1 ha).1
  refine StationView.Begun.held
    { joins := rfl, unsaid := rfl, landed := rfl, still := rfl, kept := rfl, hold := rfl, publish := rfl, beacon := rfl
      uncounted := rfl, join := rfl, failed := Nat.zero_le _, updating := rfl, resending := rfl, asking := rfl
      number := h.number hcommitted
      names := h.names
      waiting := nofun
      frames := fun a ha => h.frames_landed a (hkept a ha)
      busy := fun hne => ?_
      quiet := h.quiet
      unconfigured := nofun
      port := h.port }
  obtain ⟨a, ha⟩ := Option.ne_none_iff_exists'.1 hne
  exact h.busy (by rw [show s.stationView.assembly = some a from hkept a ha]; exact nofun)

theorem withdrawNow_held (h : s.stationView.Held p c) (hactive : s.control.state.isActive) :
    s.withdrawNow.stationView.Held p c := by
  unfold State.withdrawNow
  split
  next hflies => exact { h with withdrawing := fun _ => Option.isSome_iff_ne_none.1 hflies }
  next hlands =>
    exact State.enterListening_held (h.grounded (Option.not_isSome_iff_eq_none.1 hlands) hactive) .command

theorem forceRecall_held (h : s.stationView.Held p c) (r : PeerRecord) : (s.forceRecall r).stationView.Held p c :=
  peer_held h (.forceRecall s r) ((waitsHeld_of_held h).forceRecall r)

/-- Every command that its class check lets pass. -/
theorem perform_held (h : s.stationView.Held p c) {d : PortCommand} (hopen : d.classOf.opens s.control.state = true)
    (args : List Byte) : (s.perform args d).2.InOrder := by
  have hkept : s.InOrder := inOrder_of_held h
  cases d with
  | readStatus | readTallies => exact inOrder_of_held { h with }
  | readPoint =>
    show (readPoint args s).2.InOrder
    unfold readPoint
    repeat' split
    all_goals exact hkept
  | takeNotice =>
    show (takeNotice args s).2.InOrder
    unfold takeNotice
    split
    · exact hkept
    · exact inOrder_of_held (p := p) (c := c) { h with }
  | readPeer =>
    show (readPeer args s).2.InOrder
    unfold readPeer
    repeat' split
    all_goals exact hkept
  | clearFault =>
    show (clearFault args s).2.InOrder
    unfold clearFault
    repeat' split
    all_goals exact inOrder_of_held (p := p) (c := c) { h with }
  | setIdentity =>
    show (setIdentity args s).2.InOrder
    unfold setIdentity
    split
    next b e =>
      split
      next n hn =>
        refine inOrder_of_held (p := p) (c := c) { h with number := fun _ => nofun, names := fun m hm => ?_ }
        cases hm
        have hnames := stationArg_names b
        rw [hn] at hnames
        exact hnames
      · exact hkept
    · exact hkept
  | setTiming =>
    show (setTiming args s).2.InOrder
    unfold setTiming
    repeat' split
    all_goals exact inOrder_of_held (p := p) (c := c) { h with }
  | declarePoint =>
    show (declarePoint args s).2.InOrder
    unfold declarePoint
    repeat' split
    all_goals exact inOrder_of_held (p := p) (c := c) { h with }
  | setWindow =>
    show (setWindow args s).2.InOrder
    unfold setWindow
    repeat' split
    all_goals exact inOrder_of_held (p := p) (c := c) { h with }
  | commit =>
    show (Machine.commit args s).2.InOrder
    unfold Machine.commit
    split
    · exact hkept
    next n hn => exact inOrder_of_held (commitAll_held h (eq_of_beq hopen) (by rw [hn]; exact nofun))
  | writePoint =>
    show (writePoint args s).2.InOrder
    unfold writePoint
    split
    · split
      · refine inOrder_of_held (p := p) (c := c) ?_
        rw [writeOwn_stationView]
        exact h
      · exact hkept
    · exact hkept
  | recallPeer =>
    show (recallPeer args s).2.InOrder
    unfold recallPeer
    repeat' split
    case isFalse => exact inOrder_of_held (forceRecall_held h _)
    all_goals exact hkept
  | withdraw =>
    show (withdraw args s).2.InOrder
    unfold withdraw
    split
    next hstate => exact inOrder_of_held (withdrawNow_held h (.inl hstate))
    next hstate => exact inOrder_of_held (withdrawNow_held h (.inr hstate))
    · exact hkept
    · exact hkept
  | rejoin =>
    show (rejoin args s).2.InOrder
    unfold rejoin
    split
    next hstate => exact inOrder_of_held (rejoinNow_held h (congrArg StationState.isListening hstate))
    all_goals exact hkept
  | restart => exact inOrder_of_held (restartAll_held h (bne_iff_ne.1 hopen))

/-! ### Timer expiries -/

theorem joinExpires_held (h : s.stationView.Held p c) (hdue : s.control.joinTimer.isDue = true) :
    s.joinExpires.stationView.Held p c := by
  obtain ⟨hjoining, hdone⟩ := h.join.1 (congrArg Timer.isRunning ((Timer.isDue_iff _).1 hdue))
  have hnotHeld : ∀ {x : Timer} {mayRun : Prop}, x.fits mayRun (s.stationView.state.isListening = true) →
      x.isHeld = false := by
    intro x mayRun hx
    rw [hjoining] at hx
    exact Bool.eq_false_iff.2 fun hheld => by cases hx.2 hheld
  have hwaits : s.WaitsHeld (fun x => x.isHeld = false) s.peers.asking.isSome s.arbiter.wants :=
    ⟨rfl, fun r hr => hnotHeld (h.waiting _ (List.mem_map_of_mem hr)), rfl, rfl⟩
  have hview : s.joinExpires.stationView = { s.stationView with
      joinTimer := .stopped
      waits := s.joinRecall.peers.records.map PeerRecord.recallWait
      state := .inService } :=
    congrArg (fun v : StationView => { v with joinTimer := .stopped, state := .inService }) s.joinRecall_stationView
  rw [hview]
  refine h.serve (.inl hjoining) (hnotHeld h.publish) (hnotHeld h.beacon) (fun x hx => ?_) ?_ hdone
  · obtain ⟨r, hr, rfl⟩ := List.mem_map.1 hx
    exact hwaits.joinRecall.waits r hr
  · by_contra hne
    have hcounting := h.counting hne
    rw [hjoining] at hcounting
    cases hcounting

theorem idleTick_held (h : s.stationView.Held p c) : s.idleTick.stationView.Held p c :=
  { h with
    join := Timer.fits_tick h.join
    hold := Timer.fits_tick h.hold
    publish := Timer.fits_tick h.publish
    beacon := Timer.fits_tick h.beacon
    waiting := fun x hx => by
      obtain ⟨r, hr, rfl⟩ := List.mem_map.1 hx
      obtain ⟨y, hy, rfl⟩ := List.mem_map.1 hr
      exact Timer.fits_tick (h.waiting _ (List.mem_map_of_mem hy)) }

/-! ### Every command -/

theorem inOrder_of_coldReset {port : Port} : { State.reset.stationView with port := port }.Held port True where
  frames := nofun
  busy := fun hne => absurd rfl hne
  quiet := nofun
  unconfigured := fun _ => rfl
  number := fun hne => absurd rfl hne
  names := nofun
  served := nofun
  count := Nat.zero_le _
  counting := fun hne => absurd rfl hne
  join := Timer.fits_stopped _ _
  hold := Timer.fits_stopped _ _
  publish := Timer.fits_stopped _ _
  beacon := Timer.fits_stopped _ _
  waiting := nofun
  updating := rfl
  resending := rfl
  asking := rfl
  driven := ⟨fun _ => rfl, fun _ => rfl⟩
  active := fun hne => absurd rfl hne
  first := nofun
  withdrawing := nofun
  failed := Nat.zero_le _
  port := rfl
  configuring := iff_of_true rfl trivial

/-- What keeps the port and CONFIGURING keeps the class of the command being collected. -/
theorem collectingWf_of_held (h : t.stationView.Held s.port (s.control.state = .configuring)) (hc : s.collectingWf) :
    t.collectingWf := by
  have hport : t.port = s.port := h.port
  intro hphase d hd
  rw [hport] at hphase hd
  exact (CommandClass.opens_congr h.configuring d.classOf).trans (hc hphase d hd)

theorem transact_inOrder (h : s.InOrder) (hc : s.collectingWf) (d : Option PortCommand) (ldi : List Bool) :
    (s.transact d ldi).InOrder ∧ (s.transact d ldi).collectingWf := by
  generalize hu : s.transact d ldi = u
  have hclocked : s.Clocked u := hu ▸ s.transact_clocked d ldi
  cases hclocked with
  | moved q n hcollect => exact ⟨inOrder_of_held { h with port := rfl }, hcollect hc⟩
  | taken e args q n hopen _ hq =>
    have hperformed := perform_held h (hopen hc) args
    exact ⟨inOrder_of_held { hperformed with port := rfl },
      fun hphase => absurd hphase (Port.not_arguments_of_hasTaken hq)⟩

/-- Every command keeps the invariant and the class of a collected command. -/
theorem exec_inOrder (h : s.InOrder) (hc : s.collectingWf) (i : Instr) :
    ∃ t, exec i s = .next t ∧ t.InOrder ∧ t.collectingWf := by
  have hs : s.stationView.Held s.port (s.control.state = .configuring) := h
  have hkept : ∀ t : State, t.stationView.Held s.port (s.control.state = .configuring) → t.InOrder ∧ t.collectingWf :=
    fun t ht => ⟨inOrder_of_held ht, collectingWf_of_held ht hc⟩
  cases i with
  | badCommand ldi | setIdentity ldi | setTiming ldi | declarePoint ldi | setWindow ldi | commit ldi | readStatus ldi
  | readPoint ldi | takeNotice ldi | readPeer ldi | readTallies ldi | clearFault ldi | writePoint ldi | recallPeer ldi
  | withdraw ldi | rejoin ldi | restart ldi => exact ⟨_, rfl, transact_inOrder h hc _ ldi⟩
  | coldReset =>
    exact ⟨_, rfl, inOrder_of_held (p := Port.reset) (c := True) inOrder_of_coldReset, nofun⟩
  | transactionOpen =>
    refine ⟨_, rfl, ?_⟩
    split
    · exact ⟨inOrder_of_held { h with port := rfl }, nofun⟩
    · exact ⟨h, hc⟩
  | transactionClose => exact ⟨_, rfl, inOrder_of_held { h with port := rfl }, nofun⟩
  | noticeRemoval =>
    refine ⟨_, rfl, ?_⟩
    split
    · exact ⟨h, hc⟩
    · exact ⟨inOrder_of_held { h with port := rfl }, nofun⟩
  | lineBusy cells =>
    refine ⟨_, rfl, hkept _ ?_⟩
    split
    next hidle =>
      have hbusy := setCondition_held hs
      dsimp only
      split
      next hconfiguring => exact hbusy (hs.unconfigured hconfiguring) nofun
      next hconfiguring => exact takeCells_held (lineBusy_held hs hidle hconfiguring _) cells
    · exact hs
  | lineIdle cells =>
    refine ⟨_, rfl, hkept _ ?_⟩
    split
    · exact freeLine_held (takeCells_held hs cells)
    · exact hs
  | lineBreak cells =>
    refine ⟨_, rfl, hkept _ ?_⟩
    split
    · exact setCondition_held (cutAssembly_held (takeCells_held hs cells)) (cutAssembly_assembly _) nofun
    · exact hs
  | stuck =>
    refine ⟨_, rfl, hkept _ ?_⟩
    split
    next hlow =>
      exact { setCondition_held hs (assembly_none_of_condition hs (by rw [hlow]; exact nofun)) (x := .stuck) nofun with }
    · exact hs
  | stuckEnd =>
    refine ⟨_, rfl, hkept _ ?_⟩
    split
    · exact freeLine_held hs
    · exact hs
  | breakEnd =>
    refine ⟨_, rfl, hkept _ ?_⟩
    split
    next hlow => exact setCondition_held hs (assembly_none_of_condition hs (by rw [hlow]; exact nofun)) nofun
    · exact hs
  | earlyEdge =>
    refine ⟨_, rfl, hkept _ ?_⟩
    split
    next hwaiting => exact earlyEdge_held hs hwaiting _ rfl
    · exact hs
  | frameEnd cells =>
    refine ⟨_, rfl, hkept _ ?_⟩
    split
    · exact hs
    next a ha =>
      dsimp only
      split
      next hfinished => exact frameEnd_held hs ha cells hfinished
      · exact hs
  | transmitStart =>
    refine ⟨_, rfl, hkept _ ?_⟩
    unfold State.start
    split
    next hmay => exact startFirst_held hs hmay _
    · exact hs
  | completed =>
    refine ⟨_, rfl, hkept _ ?_⟩
    split
    next w hw =>
      split
      · exact takeCompleted_held (finishOwn_held hs) (w := w) (by rw [State.finishOwn_eq]; exact hw)
      · exact hs
    · exact hs
  | lost =>
    refine ⟨_, rfl, hkept _ ?_⟩
    split
    next w hw =>
      split
      · exact takeCells_held (takeLost_held hs hw) _
      · exact hs
    · exact hs
  | bitError cells =>
    refine ⟨_, rfl, hkept _ ?_⟩
    split
    next hsending =>
      have htaken := takeCells_held hs (cells.take 1)
      refine takeCells_held (s := (s.takeCells (cells.take 1)).setLine
        { (s.takeCells (cells.take 1)).line with drive := .breaking })
        { htaken with driven := ⟨fun hlanded => ?_, nofun⟩ } _
      have hidle : s.line.drive = .idle := hs.driven.1
        ((congrArg Arbiter.inFlight (State.takeCells_arbiter s _)).symm.trans hlanded)
      rw [hidle] at hsending
      cases hsending
    · exact hs
  | failed =>
    refine ⟨_, rfl, hkept _ ?_⟩
    split
    next w hw =>
      split
      · exact takeFailed_held hs hw
      · exact hs
    · exact hs
  | publishTimerExpiry =>
    refine ⟨_, rfl, hkept _ ?_⟩
    split
    next hdue =>
      rw [publishExpiry_stationView]
      have hrun := hs.publish.1 (congrArg Timer.isRunning ((Timer.isDue_iff _).1 hdue))
      exact { hs with publish := Timer.fits_running hrun _ _ }
    · exact hs
  | beaconTimerExpiry =>
    refine ⟨_, rfl, hkept _ ?_⟩
    split
    · exact { hs with beacon := Timer.fits_stopped _ _ }
    · exact hs
  | helloHoldExpiry =>
    refine ⟨_, rfl, hkept _ ?_⟩
    split
    · exact { hs with hold := Timer.fits_stopped _ _ }
    · exact hs
  | silenceTimerExpiry peer =>
    refine ⟨_, rfl, hkept _ ?_⟩
    split
    next r _ =>
      split
      · exact peer_held hs (.silenceExpires s r) ((waitsHeld_of_held hs).silenceExpires r)
      · exact hs
    · exact hs
  | recallWaitExpiry peer =>
    refine ⟨_, rfl, hkept _ ?_⟩
    split
    next r _ =>
      split
      · exact peer_held hs (.recallWaitExpires s r) ((waitsHeld_of_held hs).recallWaitExpires r)
      · exact hs
    · exact hs
  | joinExpiry =>
    refine ⟨_, rfl, hkept _ ?_⟩
    split
    next hdue => exact joinExpires_held hs hdue
    · exact hs
  | millisecondClockAdvance => exact ⟨_, rfl, hkept _ { hs with }⟩

theorem step_inOrder (h : s.InOrder) (hc : s.collectingWf) (hstep : step s = .next t) : t.InOrder ∧ t.collectingWf := by
  unfold Machine.step at hstep
  split at hstep
  · cases hstep
    have htick := idleTick_held h
    exact ⟨inOrder_of_held htick, collectingWf_of_held htick hc⟩
  next i rest _ =>
    have hrest : { s with pending := rest }.InOrder := h
    obtain ⟨u, hu, hkept⟩ := exec_inOrder hrest hc i
    cases hu.symm.trans hstep
    exact hkept

end State

end Sys2Proof.Machine

open Sys2Proof Sys2Proof.Machine

/-- Settles O56: flight, assembly, owners, station state and timers are fields of one view, and each event of the
model is a change of that view that keeps it in order. -/
theorem stepKeepsFlightAndStation : Obligations.StepKeepsFlightAndStation := by
  intro s t hflight hstation hcollect hstep
  obtain ⟨hinOrder, hcollect'⟩ := State.step_inOrder ((State.inOrder_iff s).2 ⟨hflight, hstation⟩) hcollect hstep
  obtain ⟨hflight', hstation'⟩ := (State.inOrder_iff t).1 hinOrder
  exact ⟨hflight', hstation', hcollect'⟩

end

section
/-! PROOFS. Commands of the local port as whole transactions: DECLARE_POINT, SET_WINDOW, COMMIT, WRITE_POINT, WITHDRAW and
REJOIN; and the idle period and COLD_RESET. O2, O4, O12, O13, O18, O20. -/

namespace Sys2Proof.Machine

open Sys2Proof

/-! ### Argument bytes -/

theorem flagArg_inside {b : Byte} (h : b = 0 ∨ b = 1) : flagArg b = some (b == 1) := by
  rcases h with rfl | rfl <;> rfl

theorem flagArg_outside {b : Byte} (h : ¬(b = 0 ∨ b = 1)) : flagArg b = none := by
  unfold flagArg
  rw [if_neg fun h0 => h (.inl h0), if_neg fun h1 => h (.inr h1)]

theorem modeArg_eq : ∀ b : Byte, modeArg b =
    if b.toNat ≤ 2 then some ([NotifyMode.quiet, .onChange, .onEvery].getD b.toNat .quiet) else none := by decide

/-- A command whose number of argument bytes, as soon as some bytes fix it, is that of `args`. -/
theorem argsMissing_of_fixes {t : PointTable} {c : PortCommand} {args : List Byte}
    (h : ∀ k n, argCount t c (args.take k) = some n → n = args.length) : ∀ k < args.length, ArgsMissing t c (args.take k) := by
  intro k hk n hn
  rw [h k n hn, List.length_take]
  omega

/-! ### Declarations and windows -/

theorem argCount_declarePoint {t : PointTable} {i z u : Byte} {value : List Byte}
    (hlength : value.length = (sizeArg z).bytes) (k n : Nat)
    (h : argCount t .declarePoint ((i :: z :: u :: value).take k) = some n) : n = (i :: z :: u :: value).length := by
  match k, h with
  | 0, h => cases h
  | 1, h => cases h
  | k + 2, h =>
    obtain rfl : 3 + (sizeArg z).bytes = n := Option.some.inj h
    simp only [List.length_cons, hlength]
    omega

theorem exec_declarePoint {s : State} {i z u : Byte} {value : List Byte} (hs : s.port = Port.opened)
    (hstate : s.control.state = .configuring) (hlength : value.length = (sizeArg z).bytes) :
    exec (.declarePoint (portBits (0x13 :: i :: z :: u :: value))) s =
      .next (State.answer 0x13 (i :: z :: u :: value) (declarePoint (i :: z :: u :: value) s)) := by
  refine exec_taken (c := .declarePoint) rfl hs (beq_iff_eq.2 hstate)
    (argsMissing_of_fixes (argCount_declarePoint hlength)) ?_
  show some (3 + (sizeArg z).bytes) = _
  rw [← hlength]
  exact congrArg some (by simp only [List.length_cons]; omega)

theorem declarePoint_outside {i z u : Byte} {value : List Byte} (h : ¬(i.toNat ≤ 63 ∧ (u = 0 ∨ u = 1))) (s : State) :
    declarePoint (i :: z :: u :: value) s = (.refusal .badArgument, s) := by
  unfold declarePoint
  dsimp only
  by_cases hi : i.toNat ≤ 63
  · rw [indexArg_inside hi, flagArg_outside fun hu => h ⟨hi, hu⟩]
  · rw [indexArg_outside hi]

theorem setWindow_outside {n e b1 b2 m1 m2 mode : Byte} (h : ¬(n.toNat ≤ 7 ∧ (e = 0 ∨ e = 1) ∧ mode.toNat ≤ 2))
    (s : State) : setWindow [n, e, b1, b2, m1, m2, mode] s = (.refusal .badArgument, s) := by
  unfold setWindow
  dsimp only
  by_cases he : e = 0 ∨ e = 1
  · by_cases hm : mode.toNat ≤ 2
    · rw [flagArg_inside he, modeArg_eq, if_pos hm]
      exact if_neg fun hn => h ⟨hn, he, hm⟩
    · rw [flagArg_inside he, modeArg_eq, if_neg hm]
  · rw [flagArg_outside he]

/-! ### WRITE_POINT -/

theorem appendIndex_eq (l : List Index) (i : Index) : appendIndex l i = if i ∈ l then l else l ++ [i] :=
  if_congr List.contains_iff_mem rfl rfl

theorem writeCount_of_found {t : PointTable} {i : Byte} {e : OwnEntry} (h : (indexArg i).bind t.own? = some e) :
    writeCount t i = 1 + e.size.bytes := by
  unfold writeCount
  rw [h]

theorem argCount_writePoint {t : PointTable} {i : Byte} {value : List Byte} {e : OwnEntry}
    (he : (indexArg i).bind t.own? = some e) (hlength : value.length = e.size.bytes) (k n : Nat)
    (h : argCount t .writePoint ((i :: value).take k) = some n) : n = (i :: value).length := by
  match k, h with
  | 0, h => cases h
  | k + 1, h =>
    obtain rfl : writeCount t i = n := Option.some.inj h
    rw [writeCount_of_found he, List.length_cons, hlength, Nat.add_comm]

/-! ### Station states -/

theorem State.ownNumber_of_station {s : State} {n : Station} (hn : s.control.station = some n) : s.ownNumber = n := by
  unfold State.ownNumber
  rw [hn, Option.getD_some]

theorem Wants.raised_put_lowered (w k : Want) : (Wants.lowered.put w true).raised k = decide (k = w) := by
  cases w <;> cases k <;> rfl

end Sys2Proof.Machine

open Sys2Proof Sys2Proof.Machine

/-- Settles O2: the tick of each kind of timer is the one that the statement names. -/
theorem emptyQueueLetsOnePeriodPass : Obligations.EmptyQueueLetsOnePeriodPass := by
  intro s period quiet hpending hperiod hquiet
  obtain rfl : period = Timer.tick := by
    funext x
    rw [hperiod]
    cases x <;> rfl
  obtain rfl : quiet = SilenceTimer.tick := by
    funext x
    rw [hquiet]
    cases x <;> rfl
  have hstep : step s = .next s.idleTick := by
    unfold step
    rw [hpending]
  exact hstep

/-- Settles O4, by evaluation of the reset values. -/
theorem coldResetReturnsEveryBlock : Obligations.ColdResetReturnsEveryBlock := by
  intro s
  refine ⟨_, rfl, rfl, ⟨rfl, rfl, rfl, rfl, rfl, rfl, rfl, rfl, rfl, rfl, rfl, rfl, rfl, rfl⟩, ⟨rfl, rfl, rfl⟩, rfl,
    ⟨fun w => by cases w <;> rfl, rfl, rfl, rfl, rfl⟩, rfl, rfl, rfl, ⟨fun w hw => ?_, rfl, rfl, rfl, rfl⟩, rfl, rfl⟩
  exact List.eq_of_mem_replicate (n := 8) hw

/-- Settles O12, by the cases of the argument bytes that are in range and out of range. -/
theorem pointsAndWindowsAreDeclared : Obligations.PointsAndWindowsAreDeclared := by
  refine ⟨fun s i z u value hs hstate hlength => ?_, fun s n e b1 b2 m1 m2 mode hs hstate => ?_⟩
  · rw [exec_declarePoint hs hstate hlength]
    refine ⟨fun ⟨hi, hu⟩ => ?_, fun hout => ?_⟩
    · have hkey : (i.setWidth 6).toNat = i.toNat := by
        rw [BitVec.toNat_setWidth]
        omega
      refine ⟨tableInsert (fun d : Declaration => d.index.toNat) ⟨i.setWidth 6, sizeArg z, u == 1, value⟩
        s.points.declarations, ?_, ?_, fun j hj => ?_, tableInsert_sorted⟩
      · unfold declarePoint
        simp only [indexArg_inside hi, flagArg_inside hu]
        rfl
      · rw [← hkey]
        exact tableFind_tableInsert_self (key := fun d : Declaration => d.index.toNat)
          ⟨i.setWidth 6, sizeArg z, u == 1, value⟩ _
      · refine tableFind_tableInsert_other ?_ _
        rw [hkey]
        exact hj
    · rw [declarePoint_outside hout]
      rfl
  · have hexec : exec (.setWindow (portBits [0x14, n, e, b1, b2, m1, m2, mode])) s =
        .next (State.answer 0x14 [n, e, b1, b2, m1, m2, mode] (setWindow [n, e, b1, b2, m1, m2, mode] s)) :=
      exec_fixed .setWindow [n, e, b1, b2, m1, m2, mode] hs (beq_iff_eq.2 hstate) (fun _ => rfl)
    rw [hexec]
    refine ⟨fun ⟨hn, he, hm⟩ => ?_, fun hout => ?_⟩
    · refine ⟨replaceWindow s.notices.windows n.toNat ⟨e == 1, packedKeyArg b1 b2, packedKeyArg m1 m2,
        [NotifyMode.quiet, .onChange, .onEvery].getD mode.toNat .quiet⟩, ?_, fun k => ?_⟩
      · unfold setWindow
        simp only [flagArg_inside he, modeArg_eq, if_pos hm, if_pos hn]
        rfl
      · unfold replaceWindow
        simp only [Fin.getElem_fin, Vector.getElem_setIfInBounds, eq_comm (a := n.toNat)]
        rfl
    · rw [setWindow_outside hout]
      rfl

/-- Settles O13, by whether a station number has been set. -/
theorem commitCreatesOwnPointsAndJoins : Obligations.CommitCreatesOwnPointsAndJoins := by
  intro s hs hstate
  have hexec : exec (.commit (portBits [0x15])) s = .next (State.answer 0x15 [] (Machine.commit [] s)) :=
    exec_fixed .commit [] hs (beq_iff_eq.2 hstate) (fun _ => rfl)
  rw [hexec]
  refine ⟨fun n hn => ⟨Wants.lowered.put .hello true, ?_, Wants.raised_put_lowered .hello⟩, fun hnone => ?_⟩
  · have hdeclared : s.points.commit.declared = s.points.declarations.map Declaration.index := List.map_map
    have hcommit : Machine.commit [] s = (.ok, s.commitAll) := by
      unfold Machine.commit
      rw [hn]
    rw [hcommit, ← State.ownNumber_of_station hn, ← hdeclared]
    rfl
  · have hcommit : Machine.commit [] s = (.refusal .badConfig, s) := by
      unfold Machine.commit
      rw [hnone]
    rw [hcommit]
    rfl
/-- Settles O18, by whether the index byte names an own point. -/
theorem writePointAppendsTheIndexOnce : Obligations.WritePointAppendsTheIndexOnce := by
  intro s i value hs hstate
  have hopen : PortCommand.writePoint.classOf.opens s.control.state = true := bne_iff_ne.2 hstate
  refine ⟨fun e hi he hlength => ?_, fun hout => ?_⟩
  · have hfound : (indexArg i).bind s.points.own? = some e := by rw [indexArg_inside hi]; exact he
    have hexec : exec (.writePoint (portBits (0x21 :: i :: value))) s =
        .next (State.answer 0x21 (i :: value) (writePoint (i :: value) s)) :=
      exec_taken (c := .writePoint) rfl hs hopen (argsMissing_of_fixes (argCount_writePoint hfound hlength))
        (by
          show some (writeCount s.points i) = _
          rw [writeCount_of_found hfound, hlength.symm, List.length_cons, Nat.add_comm])
    have hself : s.points.own? e.index = some e := by
      rw [PointTable.own?_index he]
      exact he
    rw [hexec]
    unfold writePoint
    simp only [hfound]
    rw [State.writeOwn_eq hself, appendIndex_eq]
    rfl
  · have hfound : (indexArg i).bind s.points.own? = none := by
      by_cases hi : i.toNat ≤ 63
      · rw [indexArg_inside hi]
        exact hout.resolve_left (not_not_intro hi)
      · rw [indexArg_outside hi]
        rfl
    have hcount : writeCount s.points i = 1 := by
      unfold writeCount
      rw [hfound]
    have hexec : exec (.writePoint (portBits [0x21, i])) s = .next (State.answer 0x21 [i] (writePoint [i] s)) := by
      refine exec_taken (c := .writePoint) rfl hs hopen (argsMissing_of_fixes fun k n h => ?_) (congrArg some hcount)
      match k, h with
      | 0, h => cases h
      | k + 1, h => exact (Option.some.inj h).symm.trans hcount
    rw [hexec]
    unfold writePoint
    simp only [hfound]
    rfl

/-- Settles O20, by the station state at the command. -/
theorem withdrawAndRejoinMoveTheStation : Obligations.WithdrawAndRejoinMoveTheStation := by
  refine ⟨fun left => ⟨rfl, rfl, rfl, rfl, rfl, rfl⟩, fun s hs => ?_, fun s hs => ?_⟩
  · have hexec : s.control.state ≠ .configuring →
        exec (.withdraw (portBits [0x23])) s = .next (State.answer 0x23 [] (withdraw [] s)) :=
      fun hstate => exec_fixed .withdraw [] hs (bne_iff_ne.2 hstate) (fun _ => rfl)
    have htaken : s.control.state.isActive →
        exec (.withdraw (portBits [0x23])) s = .next (State.answer 0x23 [] (.ok, s.withdrawNow)) := by
      rintro (hstate | hstate)
      all_goals
        rw [hexec (by rw [hstate]; exact nofun)]
        unfold withdraw
        rw [hstate]
    refine ⟨fun hactive hlanded n hn => ?_, fun hactive hflies => ?_, fun cause hstate => ?_⟩
    · rw [htaken hactive, State.withdrawNow, hlanded, State.enterListening_eq, State.ownNumber_of_station hn]
      rfl
    · rw [htaken hactive, State.withdrawNow, if_pos (Option.isSome_iff_ne_none.2 hflies)]
      rfl
    · rw [hexec (by rw [hstate]; exact nofun)]
      unfold withdraw
      rw [hstate]
      rfl
  · have hexec : s.control.state ≠ .configuring →
        exec (.rejoin (portBits [0x24])) s = .next (State.answer 0x24 [] (rejoin [] s)) :=
      fun hstate => exec_fixed .rejoin [] hs (bne_iff_ne.2 hstate) (fun _ => rfl)
    refine ⟨fun cause n hstate hn => ?_, fun hactive => ?_⟩
    · rw [hexec (by rw [hstate]; exact nofun)]
      unfold rejoin
      rw [hstate, ← State.ownNumber_of_station hn]
      rfl
    · rcases hactive with hstate | hstate
      all_goals
        rw [hexec (by rw [hstate]; exact nofun)]
        unfold rejoin
        rw [hstate]
        rfl

end

section
/-! PROOFS. Good frames at the publication unit and at station control, and the exit from LISTENING(LINE_TROUBLE):
O41 and O42. -/

namespace Sys2Proof.Machine

open Sys2Proof

theorem bne_eq_decide_ne {α : Type} [DecidableEq α] (a b : α) : (a != b) = decide (a ≠ b) :=
  Bool.eq_iff_iff.2 (bne_iff_ne.trans decide_eq_true_iff.symm)

/-! ### Good frames at station control -/

/-- Whether a HELLO starts or restarts the hello hold (R169). -/
theorem State.takesHello_iff (s : State) :
    ((s.control.state == .joining && s.control.helloDone) || s.control.state == .inService) = true ↔
      s.control.state = .inService ∨ (s.control.state = .joining ∧ s.control.helloDone = true) := by
  rw [Bool.or_eq_true, Bool.and_eq_true, beq_iff_eq, beq_iff_eq, or_comm]

theorem State.takeHello_open {s : State} {n : Station} (hn : s.control.station = some n)
    (h : s.control.state = .inService ∨ (s.control.state = .joining ∧ s.control.helloDone = true)) :
    s.takeHello =
      { s with control := { s.control with helloHold := .running (n.toNat * 64 * s.control.timing.rate.cellPeriods) } } := by
  unfold State.takeHello
  rw [if_pos (s.takesHello_iff.2 h), State.ownNumber_of_station hn]
  rfl

theorem State.takeHello_closed {s : State}
    (h : ¬(s.control.state = .inService ∨ (s.control.state = .joining ∧ s.control.helloDone = true))) :
    s.takeHello = s := if_neg fun hopen => h (s.takesHello_iff.1 hopen)

theorem State.goodFrameReport_uncounted {s : State} (h : s.control.state ≠ .listening .lineTrouble) :
    s.goodFrameReport = s := if_neg h

/-- In LISTENING a HELLO is not taken, so the report is all. -/
theorem State.controlEvent_of_trouble {s : State} (h : s.control.state = .listening .lineTrouble) (f : Frame) :
    s.controlEvent f = s.goodFrameReport := by
  have hclosed : s.takeHello = s := State.takeHello_closed (by rw [h]; rintro (hc | ⟨hc, _⟩) <;> cases hc)
  unfold State.controlEvent
  rw [hclosed, ite_self]

/-! ### The exit from LISTENING(LINE_TROUBLE) -/

/-- The state as the exit leaves it before the join recall (R172). -/
def State.resumed (s : State) : State :=
  let u := ((s.setControl { s.control with lineTroubleCount := 0, joinTimer := .stopped, helloDone := true }).setPublication
    s.publication.resume).setPeers (s.peers.mapWaits Timer.resume)
  if s.control.helloDone then u else u.startPublishing

theorem State.troubleExit_eq (s : State) :
    s.troubleExit =
      ((if s.control.joinTimer.isHeld || !s.control.helloDone then s.resumed.joinRecall else s.resumed).raiseBeacon).enter
        .inService := rfl

/-- The publication unit's timers start in full, and a round is opened for what waits. -/
theorem State.startPublishing_eq (s : State) {opens : Bool}
    (hopens : opens = (!s.publication.publishSet.isEmpty && decide (s.publication.round = .closed))) :
    s.startPublishing =
      { s with
        publication := { s.publication with
          publishTimer := s.control.timing.publishFull
          beaconTimer := s.control.timing.beaconFull
          round := if opens then .opened 0 else s.publication.round }
        arbiter := { s.arbiter with wants := { s.arbiter.wants with routine := s.arbiter.wants.routine || opens } } } := by
  have hiff : s.publication.publishSet ≠ [] ∧ s.publication.round = .closed ↔ opens = true := by
    rw [hopens, Bool.and_eq_true, decide_eq_true_iff, Bool.not_eq_true', List.isEmpty_eq_false_iff]
  unfold State.startPublishing
  rw [State.publishExpiry_eq]
  refine (if_congr hiff rfl rfl).trans ?_
  cases opens with
  | true =>
    rw [Bool.or_true]
    rfl
  | false =>
    rw [Bool.or_false]
    rfl

/-! Of station control the join recall keeps all but the flags. -/

theorem State.joinRecall_station (s : State) : s.joinRecall.control.station = s.control.station := by
  obtain ⟨u, hside, hu⟩ := PeerSide.joinRecall s
  rw [hu]
  have hstation := congrArg Control.station hside.control
  exact hstation

theorem State.joinRecall_clock (s : State) : s.joinRecall.control.clock = s.control.clock := by
  obtain ⟨u, hside, hu⟩ := PeerSide.joinRecall s
  rw [hu]
  exact hside.control_clock

end Sys2Proof.Machine

open Sys2Proof Sys2Proof.Machine

/-- Settles O41, by the kind of the frame and by whether the hello hold may start. -/
theorem addressedAsksAndHellosAreTaken : Obligations.AddressedAsksAndHellosAreTaken := by
  intro s f
  refine ⟨fun target wanted believed asked replay hbody => ⟨fun hother => ?_, fun hown hreplay => ?_⟩,
    fun hkind => ?_, fun htrouble => ⟨fun n hn hkind hopen => ?_, fun hclosed => ?_⟩⟩
  · unfold State.publicationEvent
    rw [hbody]
    exact if_neg fun hown => hother ((s.isOwn_iff target).1 hown)
  · have htaken : s.publicationEvent f = s.takeRequest wanted believed asked := by
      unfold State.publicationEvent
      rw [hbody]
      exact if_pos ((s.isOwn_iff target).2 hown)
    rw [htaken, State.takeRequest_eq s wanted believed asked hreplay, bne_eq_decide_ne, bne_eq_decide_ne, Bool.or_assoc]
  · unfold State.publicationEvent
    cases hbody : f.body with
    | ask target wanted believed asked =>
      rw [hbody] at hkind
      exact absurd rfl hkind
    | update | hello | beacon | resend => rfl
  · unfold State.controlEvent
    rw [Frame.isHello_eq, if_pos (decide_eq_true hkind), State.takeHello_open hn hopen]
    exact State.goodFrameReport_uncounted htrouble
  · have hkept : (if f.isHello then s.takeHello else s) = s := by
      split
      next hhello =>
        rw [Frame.isHello_eq] at hhello
        exact State.takeHello_closed fun hopen => hclosed ⟨of_decide_eq_true hhello, hopen⟩
      next => rfl
    unfold State.controlEvent
    rw [hkept]
    exact State.goodFrameReport_uncounted htrouble

/-- Settles O42: before the 32nd report only the count changes; at it the state before the join recall is the one that
the statement names, whether or not the HELLO had completed. -/
theorem thirtyTwoGoodFramesEndLineTrouble : Obligations.ThirtyTwoGoodFramesEndLineTrouble := by
  refine ⟨fun left => ⟨rfl, rfl, rfl⟩, fun s resumed f n opens windowOpen hn hstate hopens hwindow hresumed => ?_⟩
  have hreport : s.goodFrameReport = if s.control.lineTroubleCount + 1 < 32 then
      s.setControl { s.control with lineTroubleCount := s.control.lineTroubleCount + 1 } else s.troubleExit := if_pos hstate
  rw [State.controlEvent_of_trouble hstate, hreport]
  refine ⟨fun hfew => if_pos (Nat.succ_lt_succ hfew), fun hmany u hu => ?_⟩
  have hequal : s.resumed = resumed := by
    rw [hresumed]
    unfold State.resumed
    cases hdone : s.control.helloDone with
    | true =>
      rw [hdone] at hopens
      rw [show opens = false from hopens, Bool.or_false]
      rfl
    | false =>
      rw [hdone] at hopens
      exact State.startPublishing_eq _ hopens
  have hheld : windowOpen = (s.control.joinTimer.isHeld || !s.control.helloDone) := by
    rw [hwindow]
    cases s.control.joinTimer <;> rfl
  have hexit : s.troubleExit = u.raiseBeacon.enter .inService := by
    rw [State.troubleExit_eq, hu, hheld, hequal]
  obtain ⟨hstation', hclock'⟩ : u.control.station = resumed.control.station ∧
      u.control.clock = resumed.control.clock := by
    rw [hu]
    split
    · exact ⟨State.joinRecall_station resumed, State.joinRecall_clock resumed⟩
    · exact ⟨rfl, rfl⟩
  have hstation : u.control.station = some n := by
    rw [hstation', hresumed]
    exact hn
  have hclock : u.control.clock = s.control.clock := by
    rw [hclock', hresumed]
  rw [if_neg (by omega), hexit, ← hclock, ← State.ownNumber_of_station hstation]
  rfl

end

section
/-! PROOFS. The start of a frame: the choice of a want, and the run of the Publish Set that an own UPDATE takes. O43 and
O44. -/

namespace Sys2Proof.Machine

open Sys2Proof

/-! ### The choice of a want -/

theorem State.contends_iff (s : State) (w : Want) :
    (s.arbiter.wants.raised w && s.offered w) = true ↔
      s.arbiter.wants.raised w = true ∧ (w = .hello ∨ s.control.state = .inService ∨ s.control.helloDone = true) := by
  unfold State.offered
  rw [Bool.and_eq_true, Bool.or_eq_true, Bool.or_eq_true, beq_iff_eq, beq_iff_eq, or_assoc]

/-- With no want raised and offered nothing starts. -/
theorem State.start_of_none {s : State} (h : ∀ v, (s.arbiter.wants.raised v && s.offered v) = false) : s.start = s := by
  unfold State.start
  split
  · have hskip := State.startFirst_skip (before := wantOrder) [] (fun v _ => h v)
    rw [List.append_nil] at hskip
    exact hskip
  · rfl

/-- The wants before the one to be asked are passed over. -/
theorem State.start_of_skipped {s : State} (hmay : s.mayTransmit = true) {before rest : List Want}
    (horder : wantOrder = before ++ rest) (hskip : ∀ v ∈ before, (s.arbiter.wants.raised v && s.offered v) = false) :
    s.start = s.startFirst rest := by
  unfold State.start
  rw [if_pos hmay, horder, State.startFirst_skip rest hskip]

theorem Wants.raised_put (x : Wants) (w v : Want) (b : Bool) :
    (x.put w b).raised v = if v = w then b else x.raised v := by
  cases w <;> cases v <;> rfl

/-- A declined want leaves the choice as if it had been lowered before (R152). -/
theorem State.start_declined {s : State} (hmay : s.mayTransmit = true) {before after : List Want} {w : Want}
    (horder : wantOrder = before ++ w :: after) (hw : (s.arbiter.wants.raised w && s.offered w) = true)
    (hskip : ∀ v ∈ before, (s.arbiter.wants.raised v && s.offered v) = false) (hnone : s.contents w = none) :
    s.start = (s.setWant w false).start := by
  have hlower : ∀ v, (s.arbiter.wants.raised v && s.offered v) = false ∨ v = w →
      ((s.setWant w false).arbiter.wants.raised v && (s.setWant w false).offered v) = false := by
    intro v hv
    show ((s.arbiter.wants.put w false).raised v && s.offered v) = false
    rw [Wants.raised_put]
    split
    · rfl
    next hne => exact hv.resolve_right hne
  have hdeclined : s.startFirst (w :: after) = (s.setWant w false).startFirst after := by
    rw [State.startFirst, if_pos hw, hnone]
  have horder' : wantOrder = (before ++ [w]) ++ after := by rw [horder, List.append_assoc, List.singleton_append]
  rw [State.start_of_skipped hmay horder hskip, hdeclined]
  refine (State.start_of_skipped (s := s.setWant w false) hmay horder' fun v hv => ?_).symm
  rcases List.mem_append.1 hv with hv | hv
  · exact hlower v (.inl (hskip v hv))
  · exact hlower v (.inr (List.mem_singleton.1 hv))

/-! ### The longest run that fits -/

theorem fitting_sum_le {limit used : Nat} (h : used ≤ limit) (l : List Item) :
    used + ((fitting limit used l).map (fun i => i.size.itemBytes)).sum ≤ limit := by
  induction l generalizing used with
  | nil => exact h
  | cons i l ih =>
    unfold fitting
    split
    next hfits =>
      have hrest := ih hfits
      rw [List.map_cons, List.sum_cons]
      omega
    next => exact h

/-- The first item that is left would not have fitted. -/
theorem fitting_longest {limit used : Nat} {l rest : List Item} (h : fitting limit used l ++ rest = l) :
    ∀ i ∈ rest.head?, limit < used + ((fitting limit used l).map (fun i => i.size.itemBytes)).sum + i.size.itemBytes := by
  induction l generalizing used with
  | nil =>
    obtain rfl : rest = [] := h
    exact nofun
  | cons i l ih =>
    unfold fitting at h ⊢
    split at h
    next hfits =>
      rw [if_pos hfits]
      intro j hj
      have hrest := ih (List.cons.inj h).2 j hj
      rw [List.map_cons, List.sum_cons]
      omega
    next hfull =>
      rw [if_neg hfull]
      intro j hj
      rw [show rest = i :: l from h] at hj
      cases hj
      simpa using hfull

/-! ### Urgent members -/

theorem PointTable.own?_of_mem {t : PointTable} (h : tableSorted (fun e : OwnEntry => e.index.toNat) t.own) {e : OwnEntry}
    (he : e ∈ t.own) : t.own? e.index = some e := tableFind_of_mem h he

theorem PointTable.urgent_eq_any {t : PointTable} (h : tableSorted (fun e : OwnEntry => e.index.toNat) t.own) (i : Index) :
    t.urgent i = t.own.any (fun e => decide (e.index = i) && e.urgent) := by
  refine Bool.eq_iff_iff.2 ?_
  rw [List.any_eq_true]
  constructor
  · intro hurgent
    unfold PointTable.urgent at hurgent
    split at hurgent
    next e he => exact ⟨e, (tableFind_mem he).1, by simp [PointTable.own?_index he, hurgent]⟩
    next => cases hurgent
  · rintro ⟨e, he, hboth⟩
    obtain ⟨hindex, hurgent⟩ := Bool.and_eq_true_iff.1 hboth
    obtain rfl := of_decide_eq_true hindex
    rw [PointTable.urgent_of_own? (PointTable.own?_of_mem h he)]
    exact hurgent

/-- An urgent member that was not carried waits exactly if the run of the urgent members ended before their end. -/
theorem any_urgent_left {urgent : Index → Bool} {set carried rest : List Index} (hnodup : set.Nodup)
    (hrun : carried ++ rest = set.filter urgent) :
    (set.filter (fun i => decide (i ∉ carried))).any urgent = !rest.isEmpty := by
  have hsource : (carried ++ rest).Nodup := hrun ▸ hnodup.filter _
  refine Bool.eq_iff_iff.2 ?_
  rw [List.any_eq_true, Bool.not_eq_true', List.isEmpty_eq_false_iff]
  constructor
  · rintro ⟨i, hi, hurgent⟩
    obtain ⟨hset, hleft⟩ := List.mem_filter.1 hi
    have hmem : i ∈ carried ++ rest := hrun ▸ List.mem_filter.2 ⟨hset, hurgent⟩
    exact List.ne_nil_of_mem ((List.mem_append.1 hmem).resolve_left (of_decide_eq_true hleft))
  · intro hne
    obtain ⟨i, hi⟩ := List.exists_mem_of_ne_nil rest hne
    have hmem : i ∈ set.filter urgent := hrun ▸ List.mem_append_right carried hi
    obtain ⟨hset, hurgent⟩ := List.mem_filter.1 hmem
    have hleft : i ∉ carried := fun hc => (List.nodup_append.1 hsource).2.2 i hc i hi rfl
    exact ⟨i, List.mem_filter.2 ⟨hset, decide_eq_true hleft⟩, hurgent⟩

theorem filter_not_contains (l carried : List Index) :
    l.filter (fun i => !carried.contains i) = l.filter (fun i => decide (i ∉ carried)) :=
  List.filter_congr fun i _ => by rw [List.contains_eq_mem, decide_not]

/-! ### The start of an own UPDATE -/

/-- A run from the head of declared indexes, with the items that carry it and the rest (R34, R35). -/
structure State.TakesRun (s : State) (source : List Index) (items : List Item) (rest : List Index) : Prop where
  run : items.map Item.index ++ rest = source
  fits : (items.map (fun i => i.size.itemBytes)).sum ≤ 29
  longest : ∀ j ∈ rest.head?, ∀ e ∈ s.points.own, e.index = j →
    29 < (items.map (fun i => i.size.itemBytes)).sum + e.size.itemBytes
  snapshots : ∀ i ∈ items, ∃ e ∈ s.points.own, i = e.snapshot

theorem State.exists_takesRun {s : State} (hsorted : tableSorted (fun e : OwnEntry => e.index.toNat) s.points.own)
    {source : List Index} (hdeclared : ∀ i ∈ source, i ∈ s.points.declared) :
    ∃ rest, s.TakesRun source (fitting 29 0 (s.snapshots source)) rest := by
  obtain ⟨left, hleft⟩ := exists_fitting_append 29 0 (s.snapshots source)
  refine ⟨left.map Item.index, ?_, ?_, fun j hj e he hindex => ?_, fun i hi => ?_⟩
  · rw [← List.map_append, hleft, State.snapshots_index hdeclared]
  · have hsum := fitting_sum_le (Nat.zero_le 29) (s.snapshots source)
    omega
  · obtain ⟨i, hi, rfl⟩ : ∃ i ∈ left.head?, i.index = j := by
      rw [List.head?_map] at hj
      exact Option.map_eq_some_iff.1 hj
    have hmem : i ∈ s.snapshots source := by
      rw [← hleft]
      exact List.mem_append_right _ (List.mem_of_mem_head? hi)
    obtain ⟨x, hx, _, rfl⟩ := State.mem_snapshots hmem
    obtain rfl := OwnEntry.eq_of_index hsorted he hx hindex
    have hlongest := fitting_longest hleft _ hi
    rw [Nat.zero_add] at hlongest
    exact hlongest
  · obtain ⟨e, he, _, rfl⟩ := State.mem_snapshots ((fitting_sublist 29 0 _).subset hi)
    exact ⟨e, he, rfl⟩

theorem State.snapshots_ne_nil {s : State} {source : List Index} (hdeclared : ∀ i ∈ source, i ∈ s.points.declared)
    (hne : source ≠ []) : s.snapshots source ≠ [] := by
  intro hnil
  have hindex := State.snapshots_index hdeclared
  rw [hnil] at hindex
  exact hne hindex.symm

/-- An own UPDATE is the highest raised want, with the indexes that it may carry: the urgent members for an ALARM UPDATE,
the whole set for a ROUTINE UPDATE (R34, R35, R149). -/
inductive State.ChoosesUpdate (s : State) : Bool → List Index → Want → Prop where
  | alarm (raised : s.arbiter.wants.alarm = true) :
      s.ChoosesUpdate true (s.publication.publishSet.filter s.points.urgent) .alarm
  | routine (alarm : s.arbiter.wants.alarm = false) (hello : s.arbiter.wants.hello = false)
      (ask : s.arbiter.wants.ask = false) (raised : s.arbiter.wants.routine = true) :
      s.ChoosesUpdate false s.publication.publishSet .routine

namespace State.ChoosesUpdate

variable {s : State} {alarm : Bool} {source : List Index} {lead : Want}

theorem sublist (h : s.ChoosesUpdate alarm source lead) : source.Sublist s.publication.publishSet := by
  cases h with
  | alarm => exact List.filter_sublist
  | routine => exact List.Sublist.refl _

theorem contents (h : s.ChoosesUpdate alarm source lead) :
    s.contents lead = s.startUpdate alarm (fitting 29 0 (s.snapshots source)) := by cases h <;> rfl

theorem start (h : s.ChoosesUpdate alarm source lead) (hmay : s.mayTransmit = true)
    (hopen : s.control.state = .inService ∨ s.control.helloDone = true) {f : Frame} {t : State}
    (hc : s.contents lead = some (f, t)) : s.start = t.launch lead f := by
  cases h with
  | alarm raised =>
    rw [State.start_of_skipped hmay (before := []) rfl nofun,
      State.startFirst_launch _ ((s.contends_iff .alarm).2 ⟨raised, .inr hopen⟩) hc]
  | routine halarm hello ask raised =>
    rw [State.start_of_skipped hmay (before := [.alarm, .hello, .ask]) rfl,
      State.startFirst_launch _ ((s.contends_iff .routine).2 ⟨raised, .inr hopen⟩) hc]
    intro v hv
    have hlow : s.arbiter.wants.raised v = false := by
      simp only [List.mem_cons, List.not_mem_nil, or_false] at hv
      rcases hv with rfl | rfl | rfl
      · exact halarm
      · exact hello
      · exact ask
    rw [hlow, Bool.false_and]

/-- The ALARM UPDATE want stands after the start exactly if an ALARM UPDATE left urgent members behind (R33). -/
theorem wantsStarted (h : s.ChoosesUpdate alarm source lead) (hnodup : s.publication.publishSet.Nodup)
    {carried rest : List Index} (hrun : carried ++ rest = source) :
    s.wantsStarted (s.publication.publishSet.filter (fun i => !carried.contains i)) =
      { s.arbiter.wants with
        routine := s.publication.round.isOpen &&
          !(s.publication.publishSet.filter (fun i => !carried.contains i)).isEmpty
        alarm := alarm && !rest.isEmpty } := by
  rw [filter_not_contains]
  unfold State.wantsStarted
  cases h with
  | alarm raised => rw [raised, any_urgent_left hnodup hrun]
  | routine halarm => rw [halarm, Bool.false_and, Bool.false_and]

end State.ChoosesUpdate

end Sys2Proof.Machine

open Sys2Proof Sys2Proof.Machine

/-- Settles O43, by the order in which the wants are asked. -/
theorem startTakesTheHighestAllowedWant : Obligations.StartTakesTheHighestAllowedWant := by
  intro s may offered hmay hoffered
  have hcontends : ∀ w, offered w ↔ (s.arbiter.wants.raised w && s.offered w) = true := fun w => by
    rw [hoffered]
    exact (s.contends_iff w).symm
  have hmay' : may ↔ s.mayTransmit = true := by
    rw [hmay]
    exact s.mayTransmit_iff.symm
  refine ⟨fun hno => ?_, fun hcan before after w horder hw hskip => ?_, fun n hn => ?_⟩
  · refine congrArg Host.Outcome.next ?_
    rcases hno with hno | hno
    · exact if_neg fun h => hno (hmay'.2 h)
    · exact State.start_of_none fun v => Bool.eq_false_iff.2 fun h => hno v ((hcontends v).2 h)
  · have hpassed : ∀ v ∈ before, (s.arbiter.wants.raised v && s.offered v) = false := fun v hv =>
      Bool.eq_false_iff.2 fun h => hskip v hv ((hcontends v).2 h)
    refine ⟨fun f t hc => congrArg Host.Outcome.next ?_, fun hnone => congrArg Host.Outcome.next ?_⟩
    · rw [State.start_of_skipped (hmay'.1 hcan) horder hpassed, State.startFirst_launch after ((hcontends w).1 hw) hc]
      rfl
    · exact State.start_declined (hmay'.1 hcan) horder ((hcontends w).1 hw) hpassed hnone
  · rw [← State.ownNumber_of_station hn]
    exact ⟨rfl, rfl⟩
/-- Settles O44: the items are the longest run of snapshots that fits, and the wants follow what is left. -/
theorem updatesTakeARunOfThePublishSet : Obligations.UpdatesTakeARunOfThePublishSet := by
  refine ⟨fun s n alarm source lead hwf hn hstate hkept hidle hlanded hkind hne => ?_,
    fun s => ⟨fun hempty => ?_, fun hquiet => ?_⟩⟩
  · obtain ⟨⟨_, hsorted, _, _⟩, hnodup, hdeclared, _⟩ := hwf
    have hmay : s.mayTransmit = true := s.mayTransmit_iff.2
      ⟨hstate.elim .inr fun h => .inl h.1, hkept, hidle, hlanded⟩
    have hurgent : s.points.urgent = fun i => s.points.own.any (fun e => decide (e.index = i) && e.urgent) :=
      funext (PointTable.urgent_eq_any hsorted)
    have hchooses : s.ChoosesUpdate alarm source lead := by
      rcases hkind with ⟨rfl, rfl, halarm, rfl⟩ | ⟨rfl, rfl, halarm, hhello, hask, hroutine, rfl⟩
      · rw [← hurgent]
        exact .alarm halarm
      · exact .routine halarm hhello hask hroutine
    have hown : ∀ i ∈ source, i ∈ s.points.declared := fun i hi => hdeclared i (hchooses.sublist.subset hi)
    have hitems : fitting 29 0 (s.snapshots source) ≠ [] := fun hnil =>
      State.snapshots_ne_nil hown hne ((fitting_eq_nil (by decide)).1 hnil)
    obtain ⟨rest, hrun⟩ := State.exists_takesRun hsorted hown
    have hstart := hchooses.start hmay (hstate.imp_right And.right)
      (hchooses.contents.trans (State.startUpdate_some hitems))
    refine ⟨_, fitting 29 0 (s.snapshots source), rest, congrArg Host.Outcome.next hstart, hitems, hrun.run, ?_,
      hrun.fits, hrun.longest, hrun.snapshots, ?_, ?_, rfl, rfl, rfl, rfl, rfl, rfl⟩
    · rw [← filter_not_contains]
      rfl
    · exact congrArg (fun x => { s.arbiter with inFlight := some lead, wants := x })
        (hchooses.wantsStarted hnodup hrun.run)
    · rw [← State.ownNumber_of_station hn]
      rfl
  · have hnone : s.routineItems = [] := by
      unfold State.routineItems
      rw [hempty]
      rfl
    exact State.startUpdate_none.2 hnone
  · have hfilter : s.publication.publishSet.filter s.points.urgent = [] := by
      refine List.filter_eq_nil_iff.2 fun i hi hurgent => ?_
      unfold PointTable.urgent at hurgent
      split at hurgent
      next e he =>
        rw [hquiet i hi e (tableFind_mem he).1 (PointTable.own?_index he)] at hurgent
        cases hurgent
      next => cases hurgent
    have hnone : s.alarmItems = [] := by
      unfold State.alarmItems
      rw [hfilter]
      rfl
    exact State.startUpdate_none.2 hnone

end

section
/-! PROOFS. The outcomes of a frame in flight: COMPLETED, LOST and FAILED with no withdraw pending. O46 to O49. -/

namespace Sys2Proof.Machine

open Sys2Proof

/-! ### The end of a flight, before its owner takes it -/

/-- The state in which the owner takes COMPLETED (R119, R153, R154). -/
def State.completedLanding (s : State) (heard : Bool) : State :=
  { s with
    arbiter := { s.arbiter with inFlight := none, failures := 0 }
    line := { s.line with
      drive := .idle, early := if heard = true ∧ s.frame.assembly ≠ none then .waiting else s.line.early }
    frame := { s.frame with assembly := if heard = true then none else s.frame.assembly } }

/-- The winner's frame under assembly with the sampled 0 (R139). -/
def Assembly.lost (a : Assembly) : Assembly :=
  ⟨a.bits ++ [false], if a.bits.length = 10 then false else a.own, .foreign⟩

/-- The state in which the owner takes LOST, and the frame unit the sampled 0 (R139, R153, R155). -/
def State.lostLanding (s : State) : State :=
  { s with
    arbiter := { s.arbiter with
      inFlight := none, arbLost := if s.arbiter.arbLost = 65535 then 65535 else s.arbiter.arbLost + 1 }
    line := { s.line with drive := .idle }
    frame := { s.frame with assembly := s.frame.assembly.map Assembly.lost } }

/-- The state in which the owner takes FAILED (R153, R156). -/
def State.failedLanding (s : State) : State :=
  { s with
    arbiter := { s.arbiter with
      inFlight := none
      failures := s.arbiter.failures + 1
      txFail := if s.arbiter.txFail = 65535 then 65535 else s.arbiter.txFail + 1 }
    line := { s.line with drive := .idle } }

theorem Origin.next_idle_low (o : Origin) : o.next .idle .low = .foreign := by cases o <;> rfl

theorem unfinished_of_short {bits : List Bool} (h : bits.length < 16) : unfinished bits = true := by
  unfold unfinished frameBits?
  rw [if_pos h]

/-- A low cell in the arbitration field of a frame that the station no longer sends. -/
theorem State.takeCells_lost {s : State} (hdrive : s.line.drive = .idle) (hlanded : s.arbiter.inFlight = none)
    (hshort : ∀ a ∈ s.frame.assembly, a.bits.length < 11) :
    s.takeCells [.low] = s.setAssembly (s.frame.assembly.map Assembly.lost) := by
  have hcell : ∀ a ∈ s.frame.assembly,
      (if unfinished (s.cellsTaken a [.low]).bits then s.cellsTaken a [.low] else a) = a.lost := by
    intro a ha
    have hlength := hshort a ha
    have htaken : s.cellsTaken a [.low] = a.lost := by
      have hfield : (a.bits.length < 11 ∧ 11 ≤ a.bits.length + [Level.low].length) ↔ a.bits.length = 10 := by
        rw [List.length_singleton]
        omega
      rw [State.cellsTaken_eq, hdrive, hlanded, if_congr hfield rfl rfl]
      show Assembly.mk _ _ (a.origin.next .idle .low) = _
      rw [Origin.next_idle_low]
      rfl
    have hpart : unfinished a.lost.bits = true := unfinished_of_short (by
      show (a.bits ++ [false]).length < 16
      rw [List.length_append, List.length_singleton]
      omega)
    rw [htaken, if_pos hpart]
  rw [State.takeCells_eq]
  congr 1
  cases hassembly : s.frame.assembly with
  | none => rfl
  | some a => exact congrArg some (hcell a hassembly)

/-! ### What owners leave alone -/

theorem State.ownerCompleted_withdrawPending (s : State) (w : Want) :
    (s.ownerCompleted w).control.withdrawPending = s.control.withdrawPending := by
  have hupdate : s.completeUpdate.control.withdrawPending = s.control.withdrawPending := by
    unfold State.completeUpdate
    split <;> rfl
  cases w with
  | alarm | routine => exact hupdate
  | hello =>
    show s.completeHello.control.withdrawPending = _
    unfold State.completeHello
    dsimp only
    split
    · rw [State.startPublishing_eq _ rfl]
      rfl
    · rfl
  | ask =>
    show s.completeAsk.control.withdrawPending = _
    unfold State.completeAsk
    split
    · rfl
    · dsimp only
      split <;> rfl
  | beacon | resend => rfl

/-- What a report of LOST or FAILED to an owner leaves alone. -/
structure State.SameFlight (s t : State) : Prop where
  frame : t.frame = s.frame
  line : t.line = s.line
  control : t.control = s.control
  inFlight : t.arbiter.inFlight = s.arbiter.inFlight
  failures : t.arbiter.failures = s.arbiter.failures

theorem State.ownerReturned_sameFlight (s : State) (w : Want) : s.SameFlight (s.ownerReturned w) := by
  have hupdate : s.SameFlight s.returnUpdate := by
    unfold State.returnUpdate
    split
    · exact ⟨rfl, rfl, rfl, rfl, rfl⟩
    · exact ⟨rfl, rfl, rfl, rfl, rfl⟩
  cases w with
  | alarm | routine => exact hupdate
  | hello | ask | beacon | resend => exact ⟨rfl, rfl, rfl, rfl, rfl⟩

theorem State.ownerReturned_setAssembly (s : State) (w : Want) (x : Option Assembly) :
    (s.setAssembly x).ownerReturned w = (s.ownerReturned w).setAssembly x := by
  have hupdate : (s.setAssembly x).returnUpdate = s.returnUpdate.setAssembly x := by
    cases hf : s.publication.flight with
    | none =>
      unfold State.returnUpdate
      rw [show (s.setAssembly x).publication.flight = none from hf, hf]
    | some f =>
      rw [State.returnUpdate_eq hf, State.returnUpdate_eq (s := s.setAssembly x) hf]
      rfl
  cases w with
  | alarm | routine => exact hupdate
  | hello | ask | beacon | resend => rfl

theorem State.endFlight_of_kept {s : State} (h : s.control.withdrawPending = false) : s.endFlight = s := by
  unfold State.endFlight
  rw [h]
  rfl

/-! ### The three outcomes -/

/-- COMPLETED, as its owner takes it. -/
theorem exec_completed {s : State} {w : Want} {frame : WireFrame} {heard : Bool} (hw : s.arbiter.inFlight = some w)
    (hdrive : s.line.drive = (if heard = true then .sending frame else .unheard frame))
    (hkept : s.control.withdrawPending = false) :
    exec .completed s = .next ((s.completedLanding heard).ownerCompleted w) := by
  have hsending : s.line.drive.isSending = true := by
    rw [hdrive]
    cases heard <;> rfl
  have hheard : s.line.drive.isHeard = heard := by
    rw [hdrive]
    cases heard <;> rfl
  have hlanding : s.finishOwn.land.setArbiter { s.finishOwn.land.arbiter with failures := 0 } =
      s.completedLanding heard := by
    rw [State.finishOwn_eq, hheard]
    rfl
  show execCompleted s = _
  unfold execCompleted
  rw [hw]
  dsimp only
  rw [if_pos hsending]
  unfold State.takeCompleted
  dsimp only
  rw [hlanding, State.endFlight_of_kept]
  rw [State.ownerCompleted_withdrawPending]
  exact hkept

/-- LOST, as its owner takes it; the sampled 0 goes to the winner's frame. -/
theorem exec_lost {s : State} {w : Want} {frame : WireFrame} (hw : s.arbiter.inFlight = some w)
    (hdrive : s.line.drive = .sending frame) (hbusy : s.line.condition = .busy)
    (hshort : ∀ a ∈ s.frame.assembly, a.bits.length < 11) (hkept : s.control.withdrawPending = false) :
    exec .lost s = .next (s.lostLanding.ownerReturned w) := by
  have hfield : (s.line.drive.isHeard && s.line.condition == .busy && s.frame.inField) = true := by
    have hin : s.frame.inField = true := by
      unfold FrameUnit.inField
      cases hassembly : s.frame.assembly with
      | none => rfl
      | some a => exact decide_eq_true (hshort a hassembly)
    rw [hdrive, hbusy, hin]
    rfl
  obtain ⟨u, hu⟩ : ∃ u : State, u =
      s.land.setArbiter { s.land.arbiter with arbLost := Tally.rise s.land.arbiter.arbLost } := ⟨_, rfl⟩
  have hlanding : u.setAssembly (s.frame.assembly.map Assembly.lost) = s.lostLanding := by
    rw [hu, Tally.rise_eq]
    rfl
  obtain ⟨hframe, hline, hcontrol, hinFlight, _⟩ := u.ownerReturned_sameFlight w
  have htaken : s.takeLost w = u.ownerReturned w := by
    unfold State.takeLost
    dsimp only
    rw [← hu, State.endFlight_of_kept]
    rw [hcontrol, hu]
    exact hkept
  have hcells : (u.ownerReturned w).takeCells [.low] =
      (u.ownerReturned w).setAssembly ((u.ownerReturned w).frame.assembly.map Assembly.lost) :=
    State.takeCells_lost (by rw [hline, hu]; rfl) (by rw [hinFlight, hu]; rfl) (by rw [hframe, hu]; exact hshort)
  show execLost s = _
  unfold execLost
  rw [hw]
  dsimp only
  rw [if_pos hfield, htaken, hcells, hframe, ← hlanding, State.ownerReturned_setAssembly, hu]
  rfl

/-- FAILED for the first seven times in a row, as its owner takes it. -/
theorem exec_failed {s : State} {w : Want} (hw : s.arbiter.inFlight = some w) (hdrive : s.line.drive = .breaking)
    (hfew : s.arbiter.failures < 7) (hkept : s.control.withdrawPending = false) :
    exec .failed s = .next (s.failedLanding.ownerReturned w) := by
  have hlanding : s.land.setArbiter { s.land.arbiter with
      txFail := Tally.rise s.land.arbiter.txFail, failures := s.land.arbiter.failures + 1 } = s.failedLanding := by
    rw [Tally.rise_eq]
    rfl
  obtain ⟨_, _, hcontrol, _, hfailures⟩ := s.failedLanding.ownerReturned_sameFlight w
  have hcalm : ¬8 ≤ (s.failedLanding.ownerReturned w).arbiter.failures := by
    rw [hfailures]
    show ¬8 ≤ s.arbiter.failures + 1
    omega
  show execFailed s = _
  unfold execFailed
  rw [hw]
  dsimp only
  rw [if_pos hdrive]
  unfold State.takeFailed
  dsimp only
  rw [hlanding, if_neg hcalm, State.endFlight_of_kept (by rw [hcontrol]; exact hkept)]

/-! ### Owners -/

theorem State.ownerCompleted_update {s : State} {w : Want} (hw : w = .alarm ∨ w = .routine) :
    s.ownerCompleted w = s.completeUpdate := by rcases hw with rfl | rfl <;> rfl

theorem State.ownerReturned_update {s : State} {w : Want} (hw : w = .alarm ∨ w = .routine) :
    s.ownerReturned w = s.returnUpdate := by rcases hw with rfl | rfl <;> rfl

/-- The round after an UPDATE, of a count that is at most 3 (R32). -/
theorem Round.afterCompletion_eq {r : Round} (h : ∀ k, r = .opened k → k ≤ 3) (alarm : Bool) (set : List Index) :
    r.afterCompletion alarm set.isEmpty = (match (generalizing := false) r with
      | .closed => .closed
      | .opened k =>
        if set = [] then .closed
        else if alarm = true then .opened k
        else if k = 3 then .closed else .opened (k + 1)) := by
  cases r with
  | closed => rfl
  | opened k =>
    have hk := h k rfl
    have hfull : (if k < 3 then Round.opened (k + 1) else .closed) = if k = 3 then .closed else .opened (k + 1) := by
      by_cases hthree : k = 3
      · rw [if_pos hthree, if_neg (by omega)]
      · rw [if_neg hthree, if_pos (by omega)]
    show (if set.isEmpty then Round.closed else if alarm then .opened k else if k < 3 then .opened (k + 1) else .closed) = _
    rw [hfull]
    exact if_congr List.isEmpty_iff rfl rfl

/-- The completion of an own ASK, every block at once, outside LISTENING (R76, R78). -/
theorem State.completeAsk_eq {s : State} {a : AskFlight} (ha : s.peers.asking = some a)
    (hactive : s.control.state.isListening = false) {records : List PeerRecord}
    (hrecords : records = s.peers.records.map (fun r =>
      if r.station = a.target ∧ a.owned = true then
        { r with
          askDue := false
          attempts := r.attempts + 1
          covered := 0
          beaconWanted := false
          recallWait := .running (16000 * s.control.timing.recallWait.ms) }
      else r)) :
    s.completeAsk =
      { s with
        peers := { s.peers with records := records, asking := none }
        arbiter := { s.arbiter with wants := { s.arbiter.wants with ask := records.any (fun r => r.askDue) } } } := by
  have hstart : s.recallStart = .running (16000 * s.control.timing.recallWait.ms) := by
    unfold State.recallStart
    rw [hactive]
    rfl
  have hmap : (if a.owned then s.mapPeer a.target (fun r => r.askCompleted s.recallStart) else s) =
      s.setPeers { s.peers with records := records } := by
    rw [hrecords, hstart]
    cases a.owned with
    | true =>
      simp only [and_true]
      rfl
    | false =>
      simp only [Bool.false_eq_true, and_false, if_false, List.map_id']
      rfl
  unfold State.completeAsk
  rw [ha]
  dsimp only
  rw [hmap, State.judgeAsk_eq]
  simp only [State.emptyMarker, State.setPeers_peers, Option.isNone_none, Bool.and_true]
  rfl

/-- LOST and FAILED at the owner of a frame that is no UPDATE (R77, R93). -/
theorem State.ownerReturned_of_quiet {s : State} {w : Want} {flight : Option Want}
    (hmem : w ∈ [Want.ask, .beacon, .hello, .resend]) (hw : flight = some w) :
    s.ownerReturned w =
      if flight = some .ask then
        { s with
          peers := { s.peers with asking := none }
          arbiter := { s.arbiter with
            wants := { s.arbiter.wants with ask := s.peers.records.any (fun r => r.askDue) } } }
      else if flight = some .resend then
        { s with
          publication := { s.publication with
            replay := s.publication.replay ||| IndexSet.ofList s.publication.resendFlight, resendFlight := [] }
          arbiter := { s.arbiter with
            wants := { s.arbiter.wants with
              resend := decide (s.publication.replay ||| IndexSet.ofList s.publication.resendFlight ≠ 0) } } }
      else s := by
  simp only [List.mem_cons, List.not_mem_nil, or_false] at hmem
  rcases hmem with rfl | rfl | rfl | rfl
  · rw [if_pos hw]
    show s.emptyMarker.judgeAsk = _
    rw [State.judgeAsk_eq]
    simp only [State.emptyMarker, State.setPeers_peers, Option.isNone_none, Bool.and_true]
    rfl
  · rw [hw, if_neg nofun, if_neg nofun]
    rfl
  · rw [hw, if_neg nofun, if_neg nofun]
    rfl
  · rw [hw, if_neg nofun, if_pos rfl]
    show s.returnResend = _
    rw [State.returnResend_eq, bne_eq_decide_ne]

end Sys2Proof.Machine

open Sys2Proof Sys2Proof.Machine

/-- Settles O46, from what the publication unit does at the completion. -/
theorem completedUpdateIsPublished : Obligations.CompletedUpdateIsPublished := by
  intro s w frame heard f carried round hw hupdate hdrive hf hnodup hkept hcarried hround hcount
  rw [exec_completed hw hdrive hkept, State.ownerCompleted_update hupdate,
    State.completeUpdate_eq (s := s.completedLanding heard) hf hnodup]
  have hround' : round = s.publication.round.afterCompletion f.alarm s.publication.publishSet.isEmpty := by
    rw [Round.afterCompletion_eq hcount]
    exact hround
  rw [hcarried, hround', bne_eq_decide_ne]
  rfl

/-- Settles O47, from what the publication unit does when its frame does not arrive. -/
theorem lostUpdateReturnsToTheHead : Obligations.LostUpdateReturnsToTheHead := by
  intro s w frame f set p x hw hupdate hf hkept hset hp hx
  rw [← filter_not_contains] at hset
  refine ⟨fun hdrive hbusy hshort => ?_, fun hdrive hfew => ?_⟩
  · rw [exec_lost hw hdrive hbusy hshort hkept, State.ownerReturned_update hupdate,
      State.returnUpdate_eq (s := s.lostLanding) hf, hp, hx, hset]
    rfl
  · rw [exec_failed hw hdrive hfew hkept, State.ownerReturned_update hupdate,
      State.returnUpdate_eq (s := s.failedLanding) hf, hp, hx, hset]
    rfl

/-- Settles O48, by the station state at the completion. -/
theorem completedHelloOpensTheJoinWindow : Obligations.CompletedHelloOpensTheJoinWindow := by
  intro s frame heard opens beaconMs hw hdrive hkept hopens hbeacon
  rw [exec_completed hw hdrive hkept, hbeacon]
  refine ⟨fun hstate => congrArg Host.Outcome.next ?_, fun hstate => congrArg Host.Outcome.next ?_⟩
  · have hjoins : (s.completedLanding heard).completeHello =
        (((s.completedLanding heard).setWant .hello false).setControl { s.control with
          helloDone := true, joinTimer := s.control.timing.joinFull }).startPublishing := if_pos hstate
    exact hjoins.trans (State.startPublishing_eq _ hopens)
  · have hserves : (s.completedLanding heard).completeHello =
        ((s.completedLanding heard).setWant .hello false).restartBeacon := if_neg (by
      show ¬s.control.state = .joining
      rw [hstate]
      exact nofun)
    exact hserves

/-- Settles O49, owner by owner. -/
theorem outcomesOfAskBeaconAndResend : Obligations.OutcomesOfAskBeaconAndResend := by
  intro s land lost failed frame heard hkept hland hlost hfailed
  have hlanding : land = s.completedLanding heard := hland
  refine ⟨fun hdrive => ⟨fun a records hw ha hactive hrecords => ?_, fun hw => ?_, fun hw => ?_⟩,
    fun returned hreturned hwants => ⟨fun hdrive hbusy hshort => ?_, fun hdrive hfew => ?_⟩⟩
  · rw [exec_completed hw hdrive hkept, hlanding]
    exact congrArg Host.Outcome.next (State.completeAsk_eq (s := s.completedLanding heard) ha hactive hrecords)
  · rw [exec_completed hw hdrive hkept, hlanding]
    rfl
  · rw [exec_completed hw hdrive hkept, hlanding]
    refine congrArg Host.Outcome.next ((State.completeResend_eq _).trans ?_)
    rw [bne_eq_decide_ne]
    rfl
  · obtain ⟨w, hw, hmem⟩ := hwants
    rw [exec_lost hw hdrive hbusy hshort hkept, hreturned, hlost]
    exact congrArg Host.Outcome.next (State.ownerReturned_of_quiet (s := s.lostLanding) hmem hw)
  · obtain ⟨w, hw, hmem⟩ := hwants
    rw [exec_failed hw hdrive hfew hkept, hreturned, hfailed]
    exact congrArg Host.Outcome.next (State.ownerReturned_of_quiet (s := s.failedLanding) hmem hw)

end

section
/-! PROOFS. Interest windows: matching bit by bit, the interest set and the mode of a key (O22). -/

namespace Sys2Proof.Machine

open Sys2Proof

/-- The masked difference of two words is zero when they agree wherever the mask is 0 (R97). -/
theorem masked_eq_zero_iff {n : Nat} (a b m : BitVec n) :
    (a ^^^ b) &&& ~~~m = 0#n ↔ ∀ i < n, m.getLsbD i = false → a.getLsbD i = b.getLsbD i := by
  constructor
  · intro h i hi hm
    have hbit := congrArg (fun x => x.getLsbD i) h
    simp only [BitVec.getLsbD_and, BitVec.getLsbD_xor, BitVec.getLsbD_not, BitVec.getLsbD_zero, hi, hm] at hbit
    simpa only [decide_true, Bool.not_false, Bool.true_and, Bool.and_true, bne_eq_false_iff_eq] using hbit
  · intro h
    refine BitVec.eq_of_getLsbD_eq fun i hi => ?_
    cases hm : m.getLsbD i with
    | true => simp [hm]
    | false => simp [h i hi hm]

theorem Window.matches_iff (w : Window) (k : Key) :
    w.matches k = true ↔
      w.enabled = true ∧ ∀ b < 12, w.mask.bits.getLsbD b = false → k.bits.getLsbD b = w.base.bits.getLsbD b := by
  rw [Window.matches, Bool.and_eq_true, beq_iff_eq]
  exact and_congr_right fun _ => masked_eq_zero_iff _ _ _

/-- The station part of a key stands above its index part. -/
theorem Key.getLsbD_bits (k : Key) {b : Nat} (hb : b < 6) :
    k.bits.getLsbD b = k.index.getLsbD b ∧ k.bits.getLsbD (6 + b) = k.station.getLsbD b := by
  unfold Key.bits
  rw [BitVec.getLsbD_append, BitVec.getLsbD_append, if_pos hb, if_neg (by omega), Nat.add_sub_cancel_left]
  exact ⟨rfl, rfl⟩

theorem mem_interestSet {windows : Vector Window 8} {own : Option Station} {n : Station} {i : Index} :
    IndexSet.mem (interestSet windows own n) i = true ↔
      own ≠ some n ∧ ∃ j : Fin 8, windows[j].matches ⟨n, i⟩ = true := by
  have hany : windows.toList.any (fun w => w.matches ⟨n, i⟩) = true ↔
      ∃ j : Fin 8, windows[j].matches ⟨n, i⟩ = true := by
    rw [List.any_eq_true]
    constructor
    · rintro ⟨w, hw, hm⟩
      obtain ⟨j, hj, rfl⟩ := Vector.mem_iff_getElem.1 (Vector.mem_toList_iff.1 hw)
      exact ⟨⟨j, hj⟩, hm⟩
    · rintro ⟨j, hm⟩
      exact ⟨_, Vector.mem_toList_iff.2 (Vector.getElem_mem j.isLt), hm⟩
  unfold interestSet
  by_cases hown : own = some n
  · simp [hown]
  · rw [if_neg hown, IndexSet.mem_ofPred, hany]
    exact (and_iff_right hown).symm

/-- The first window of those that match gives the mode (R99). -/
theorem keyMode_of_lowest {windows : Vector Window 8} {k : Key} {j : Fin 8} (hj : windows[j].matches k = true)
    (hlower : ∀ i : Fin 8, i < j → windows[i].matches k = false) : keyMode windows k = some windows[j].mode := by
  have hfind : windows.toList.find? (fun w => w.matches k) = some windows[j] := by
    refine List.find?_eq_some_iff_getElem.2 ⟨hj, j, by simp, by simp, fun i hi => ?_⟩
    have hi8 : i < 8 := hi.trans j.isLt
    simpa using hlower ⟨i, hi8⟩ hi
  unfold keyMode
  rw [hfind, Option.map_some]

theorem keyMode_eq_none {windows : Vector Window 8} {k : Key} (h : ∀ j : Fin 8, windows[j].matches k = false) :
    keyMode windows k = none := by
  have hfind : windows.toList.find? (fun w => w.matches k) = none := by
    refine List.find?_eq_none.2 fun w hw => ?_
    obtain ⟨j, hj, rfl⟩ := Vector.mem_iff_getElem.1 (Vector.mem_toList_iff.1 hw)
    simpa using h ⟨j, hj⟩
  unfold keyMode
  rw [hfind, Option.map_none]

end Sys2Proof.Machine

open Sys2Proof Sys2Proof.Machine

/-- Settles O22: matching bit by bit, the interest set by membership, the mode by the first window that matches. -/
theorem windowsGiveInterestAndMode : Obligations.WindowsGiveInterestAndMode :=
  ⟨fun w k => ⟨w.matches_iff k, fun _ hb => k.getLsbD_bits hb⟩, fun _ _ _ => mem_interestSet,
    fun _ _ => ⟨fun _ hj hlower => keyMode_of_lowest hj hlower, keyMode_eq_none⟩⟩
end

section
/-! PROOFS. The classification as a function of the sender's record: what each of its steps makes of that record, while
every other record, the places in the Peer Table and the marker's target stay. O39 is the step of hearing. -/

namespace Sys2Proof.Machine

open Sys2Proof

/-! ### One record reworked -/

/-- A Peer Table that differs from `u` in the record of station `n` alone, which has become `r`; the marker may have been
disowned. -/
structure PeerUnit.Reworked (u : PeerUnit) (n : Station) (r : PeerRecord) (v : PeerUnit) : Prop where
  stations : v.records.map PeerRecord.station = u.records.map PeerRecord.station
  self : v.find? n = some r
  others : ∀ m, m ≠ n → v.find? m = u.find? m
  lossList : v.lossList = u.lossList
  target : v.asking.map AskFlight.target = u.asking.map AskFlight.target

namespace PeerUnit.Reworked

variable {u v : PeerUnit} {n : Station} {r x : PeerRecord}

theorem refl (h : u.find? n = some r) : u.Reworked n r u := ⟨rfl, h, fun _ _ => rfl, rfl, rfl⟩

theorem trans {w : PeerUnit} (h : u.Reworked n r v) (k : v.Reworked n x w) : u.Reworked n x w :=
  ⟨k.stations.trans h.stations, k.self, fun m hm => (k.others m hm).trans (h.others m hm), k.lossList.trans h.lossList,
    k.target.trans h.target⟩

theorem mapPeer {s : State} (h : u.Reworked n r s.peers) {f : PeerRecord → PeerRecord}
    (hf : ∀ r, (f r).station = r.station) : u.Reworked n (f r) (s.mapPeer n f).peers where
  stations := by
    rw [← h.stations, State.mapPeer_records, List.map_map]
    refine List.map_congr_left fun y _ => ?_
    by_cases hy : y.station = n <;> simp [hy, hf]
  self := State.find?_mapPeer_self hf h.self
  others m hm := (State.find?_mapPeer_other s hf hm).trans (h.others m hm)
  lossList := h.lossList
  target := h.target

theorem disown {s : State} (h : u.Reworked n r s.peers) (m : Station) : u.Reworked n r (s.disown m).peers where
  stations := h.stations
  self := h.self
  others := h.others
  lossList := h.lossList
  target := by
    rw [State.disown_asking, Option.map_map]
    exact h.target

theorem asks (h : u.Reworked n r v) (m : Station) : v.asks m = u.asks m := by
  have hasks : ∀ w : PeerUnit, w.asks m = ((w.asking.map AskFlight.target).map (fun t => t == m)).getD false := by
    intro w
    unfold PeerUnit.asks
    cases w.asking <;> rfl
  rw [hasks, hasks, h.target]

theorem needOf (h : u.Reworked n r v) : v.needOf n = r.need := by
  unfold PeerUnit.needOf
  rw [h.self]
  rfl

end PeerUnit.Reworked

/-! ### What the steps make of a record -/

/-- Step 3: the record at the frame's epoch (R58). -/
def PeerRecord.atEpoch (f : Frame) (r : PeerRecord) : PeerRecord := if r.epoch = f.epoch then r else r.restarted f

/-- Step 4: the record of a sender that has been heard (R59). -/
def PeerRecord.welcomed (f : Frame) (t : Timing) (r : PeerRecord) : PeerRecord :=
  (if r.isAway then r.returned else r).heard f t

/-- The sequence check at a record (R60, R61). -/
def PeerRecord.checked (carried next : Byte) (r : PeerRecord) : PeerRecord :=
  if r.expected = none ∨ r.expected = some carried then { r with expected := some next } else r.gapTaken next

/-- Step 5 up to the gap. -/
def PeerRecord.sequenced (f : Frame) (r : PeerRecord) : PeerRecord :=
  match f.body with
  | .update sequence _ => r.checked sequence (sequence + 1)
  | .beacon next _ _ => r.checked next next
  | _ => r

/-- Step 5 after the gap. -/
def PeerRecord.informed (f : Frame) (r : PeerRecord) : PeerRecord :=
  match f.body with
  | .beacon _ period published =>
    { r with period := some period, published := some published, need := r.need &&& published, beaconWanted := false }
  | .hello period => { r with period := some period }
  | _ => r

/-- A recovered record (R64). -/
def PeerRecord.recalled (r : PeerRecord) : PeerRecord := { r.clearRecall with state := .live, beaconWanted := false }

/-- Step 7. -/
def PeerRecord.recovered (r : PeerRecord) : PeerRecord := if r.state = .recovering ∧ r.need = 0 then r.recalled else r

/-- The test of R80; `asked` says that an own ASK to the station is in flight, `before` is the need before the frame's
contents. -/
def PeerRecord.tested (asked : Bool) (start : Timer) (before : IndexSet) (r : PeerRecord) : PeerRecord :=
  if IndexSet.diff before r.need ≠ 0 ∧ (r.askDue && IndexSet.subset r.need r.covered && !asked) = true then r.met start
  else r

/-- Steps 5 to 7 and the test at a record that has been heard and whose sequence has been checked. -/
def PeerRecord.settled (f : Frame) (asked : Bool) (start : Timer) (r : PeerRecord) : PeerRecord :=
  (PeerRecord.shed f.body.items (r.informed f)).recovered.tested asked start r.need

/-- Steps 4 to 7 (R54). -/
def PeerRecord.classified (f : Frame) (t : Timing) (asked : Bool) (start : Timer) (r : PeerRecord) : PeerRecord :=
  ((r.welcomed f t).sequenced f).settled f asked start

theorem PeerRecord.welcomed_station (f : Frame) (t : Timing) (r : PeerRecord) :
    (r.welcomed f t).station = r.station := by
  unfold PeerRecord.welcomed
  split <;> rfl

/-! ### Hearing -/

/-- A station off the loss list. -/
def PeerUnit.unlisted (u : PeerUnit) (n : Station) : PeerUnit :=
  { u with lossList := u.lossList.filter (fun m => decide (m ≠ n)) }

/-- Hearing changes the sender's record, takes it off the loss list, and announces the return of one that was away. -/
theorem State.hear_eq {s : State} {f : Frame} {r : PeerRecord} (hr : s.peers.find? f.sender = some r) :
    s.hear f = { s with
      peers := (s.mapPeer f.sender (PeerRecord.welcomed f s.control.timing)).peers.unlisted f.sender
      notices := if r.isAway then s.notices.offer ⟨.peer .back f.sender, s.control.clock⟩ else s.notices } := by
  unfold State.hear PeerUnit.unlisted
  rw [hr, Option.map_some, Option.getD_some]
  dsimp only
  rw [lossList_filter]
  cases r.isAway <;> rfl

theorem State.reworked_hear {s : State} {f : Frame} {r : PeerRecord} (hr : s.peers.find? f.sender = some r) :
    (s.peers.unlisted f.sender).Reworked f.sender (r.welcomed f s.control.timing) (s.hear f).peers := by
  have hmapped := (PeerUnit.Reworked.refl hr).mapPeer (PeerRecord.welcomed_station f s.control.timing)
  rw [State.hear_eq hr]
  exact ⟨hmapped.stations, hmapped.self, hmapped.others, rfl, hmapped.target⟩

/-- A record that is here keeps its recall when it is heard (R59). -/
theorem PeerRecord.welcomed_here {r : PeerRecord} (h : r.isAway = false) (f : Frame) (t : Timing) :
    r.welcomed f t = r.heard f t := by
  unfold PeerRecord.welcomed
  rw [h]
  rfl

theorem PeerRecord.welcomed_away {r : PeerRecord} (h : r.isAway = true) (f : Frame) (t : Timing) :
    r.welcomed f t = r.returned.heard f t := by
  unfold PeerRecord.welcomed
  rw [h]
  rfl

/-- The silence limit in the terms of the frame's body (R59, R66). -/
theorem PeerRecord.silenceFull_eq (r : PeerRecord) (f : Frame) (t : Timing) :
    r.silenceFull f t = 16000 * (3 * (match f.body with
      | .hello p => 2 * p.toNat
      | .beacon _ p _ => 2 * p.toNat
      | _ => match r.period with
        | some p => 2 * p.toNat
        | none => t.interval.ms * t.multiple.times)) := by
  unfold PeerRecord.silenceFull
  cases f.body <;> rfl

end Sys2Proof.Machine

open Sys2Proof Sys2Proof.Machine

/-- Settles O39, by whether the sender's record was away. -/
theorem hearingReturnsAnAwayPeer : Obligations.HearingReturnsAnAwayPeer := by
  intro s f r heard bounded hr hbounded hheard
  have hreworked := State.reworked_hear hr
  have hrecord : r.heard f s.control.timing = heard :=
    (congrArg (fun left => { r with silence := .running .silence left })
      (r.silenceFull_eq f s.control.timing)).trans hheard.symm
  have heq := State.hear_eq hr
  refine ⟨(s.hear f).peers, hreworked.lossList, ?_, hreworked.others, fun hhere => ?_, fun haway => ?_⟩
  · rw [heq]
    rfl
  · have hpresent : r.isAway = false := by rcases hhere with h | h <;> simp [PeerRecord.isAway, h]
    refine ⟨?_, ?_⟩
    · rw [heq, hpresent]
      rfl
    · rw [hreworked.self, PeerRecord.welcomed_here hpresent, hrecord]
  · have hgone : r.isAway = true := by rcases haway with h | h <;> simp [PeerRecord.isAway, h]
    have hneed : r.bounded = bounded := hbounded.symm
    refine ⟨?_, ?_⟩
    · rw [heq, hgone]
      rfl
    · rw [hreworked.self, PeerRecord.welcomed_away hgone, ← hrecord, ← hneed, ← bne_eq_decide_ne]
      rfl
end

section
/-! PROOFS. Silence and loss: the expiry of a silence timer (O52). -/

namespace Sys2Proof.Machine

open Sys2Proof

theorem SilenceTimer.isDue_iff (t : SilenceTimer) : t.isDue = true ↔ ∃ limit, t = .running limit 0 := by
  unfold SilenceTimer.isDue
  split
  next limit => exact ⟨fun _ => ⟨limit, rfl⟩, fun _ => rfl⟩
  next h => exact ⟨nofun, fun ⟨limit, ht⟩ => absurd ht (h limit)⟩

/-- A silence timer expiry of a known record. -/
theorem execSilenceTimerExpiry_eq {s : State} {n : Station} {r : PeerRecord} (hr : s.peers.find? n = some r) :
    exec (.silenceTimerExpiry n) s = .next (if r.silence.isDue then s.silenceExpires r else s) := by
  show execSilenceTimerExpiry n s = _
  unfold execSilenceTimerExpiry
  rw [hr]

/-- The record of a station that has fallen silent; `r` is the record as it was found (R67). -/
def PeerRecord.fallen (r : PeerRecord) (t : Timing) (x : PeerRecord) : PeerRecord :=
  { x.clearRecall with state := .silent, silence := .running .loss (msPeriods (5 * r.periodMs t)) }

/-- A record that has become LOST (R68). -/
def PeerRecord.lostNow (x : PeerRecord) : PeerRecord := { x with state := .lost, silence := .stopped }

theorem State.fallSilent_eq (s : State) (r : PeerRecord) :
    s.fallSilent r = ((((s.setPoints (s.points.staleAll r.station)).mapPeer r.station
      (r.fallen s.control.timing)).disown r.station).offer (.peer .silent r.station)).judgeAsk := rfl

theorem State.becomeLost_eq (s : State) (r : PeerRecord) :
    s.becomeLost r = { s with
      peers := { (s.mapPeer r.station PeerRecord.lostNow).peers with lossList := s.peers.lossList ++ [r.station] }
      notices := s.notices.offer ⟨.peer .lost r.station, s.control.clock⟩ } := rfl

theorem State.silenceExpires_here {s : State} {r : PeerRecord} (h : r.state = .live ∨ r.state = .recovering) :
    s.silenceExpires r = s.fallSilent r := by
  unfold State.silenceExpires
  rcases h with h | h <;> rw [h]

theorem State.silenceExpires_silent {s : State} {r : PeerRecord} (h : r.state = .silent) :
    s.silenceExpires r = s.becomeLost r := by
  unfold State.silenceExpires
  rw [h]

/-- A beacon period in ms is not 0 where no period of 0 is known. -/
theorem PeerRecord.periodMs_pos {r : PeerRecord} (h : ∀ p ∈ r.period, p ≠ 0) (t : Timing) : 0 < r.periodMs t := by
  unfold PeerRecord.periodMs
  split
  next p hp =>
    have hne : p.toNat ≠ 0 := fun h0 => h p hp (BitVec.eq_of_toNat_eq h0)
    omega
  next =>
    have hinterval : 0 < t.interval.ms := by cases t.interval <;> decide
    have hmultiple : 0 < t.multiple.times := by cases t.multiple <;> decide
    exact Nat.mul_pos hinterval hmultiple

/-- The timer of a record that has been heard has time left (R59). -/
theorem PeerRecord.silenceFull_pos {r : PeerRecord} {f : Frame} (hf : ∀ p ∈ f.body.period, p ≠ 0)
    (hr : ∀ p ∈ r.period, p ≠ 0) (t : Timing) : 0 < r.silenceFull f t := by
  have hperiod : 0 < { r with period := f.body.period.or r.period }.periodMs t := by
    refine PeerRecord.periodMs_pos (fun p hp => ?_) t
    rcases Option.or_eq_some_iff.1 hp with hp | ⟨_, hp⟩
    · exact hf p hp
    · exact hr p hp
  unfold PeerRecord.silenceFull msPeriods
  omega

theorem PeerRecord.welcomed_silence (f : Frame) (t : Timing) (r : PeerRecord) :
    (r.welcomed f t).silence = .running .silence (r.silenceFull f t) := by
  unfold PeerRecord.welcomed
  split <;> rfl

end Sys2Proof.Machine

open Sys2Proof Sys2Proof.Machine

/-- Settles O52, by the state of the record whose timer is due; a record that has been heard is not. -/
theorem silenceMakesSilentThenLost : Obligations.SilenceMakesSilentThenLost := by
  intro s n
  refine ⟨fun r limit hr hdue => ?_, fun r hr hnot => ?_, fun r f hr hsender hf hperiod => ?_, fun hnone => ?_⟩
  · obtain rfl := PeerUnit.find?_station hr
    have hexec := execSilenceTimerExpiry_eq hr
    rw [if_pos ((SilenceTimer.isDue_iff _).2 ⟨limit, hdue⟩)] at hexec
    refine ⟨fun hhere => ?_, fun hsilent => ?_⟩
    · rw [State.silenceExpires_here hhere, State.fallSilent_eq, State.judgeAsk_eq, State.disown_eq] at hexec
      refine ⟨_, _, hexec, ?_, rfl, rfl, fun m hm => ?_, ?_⟩
      · simp only [State.offer_peers, State.mapPeer_asking, State.setPoints_peers, Option.isNone_map]
      · exact State.find?_mapPeer_other s (f := r.fallen s.control.timing) (fun _ => rfl) hm
      · exact State.find?_mapPeer_self (f := r.fallen s.control.timing) (fun _ => rfl) hr
    · rw [State.silenceExpires_silent hsilent, State.becomeLost_eq] at hexec
      exact ⟨_, hexec, rfl, rfl, fun m hm => State.find?_mapPeer_other s (f := PeerRecord.lostNow) (fun _ => rfl) hm,
        State.find?_mapPeer_self (f := PeerRecord.lostNow) (fun _ => rfl) hr⟩
  · rw [execSilenceTimerExpiry_eq hr, if_neg]
    exact fun hdue => let ⟨limit, h⟩ := (SilenceTimer.isDue_iff _).1 hdue; hnot limit h
  · subst hsender
    rw [execSilenceTimerExpiry_eq (State.reworked_hear hr).self, if_neg]
    intro hdue
    obtain ⟨limit, h⟩ := (SilenceTimer.isDue_iff _).1 hdue
    rw [PeerRecord.welcomed_silence] at h
    have hpos := PeerRecord.silenceFull_pos hf hperiod s.control.timing
    simp only [SilenceTimer.running.injEq] at h
    omega
  · show execSilenceTimerExpiry n s = _
    unfold execSilenceTimerExpiry
    rw [hnone]
end

section
/-! PROOFS. The join recall: its records, the order of its notices and the join expiry (O54). -/

namespace Sys2Proof.Machine

open Sys2Proof

/-! ### The free order -/

theorem insertRanked_perm (rank : Station → Nat) (n : Station) (l : List Station) :
    (insertRanked rank n l).Perm (n :: l) := by
  induction l with
  | nil => exact .refl _
  | cons m ms ih =>
    unfold insertRanked
    split
    · exact .refl _
    · exact (ih.cons m).trans (.swap n m ms)

theorem freeOrder_perm (count : Nat) (l : List Station) : (freeOrder count l).Perm l := by
  induction l with
  | nil => exact .refl _
  | cons n l ih => exact (insertRanked_perm _ n (freeOrder count l)).trans (ih.cons n)

/-! ### Recoveries completed one by one -/

theorem State.recoveryComplete_eq (s : State) (n : Station) :
    s.recoveryComplete n = { s with
      peers :=
        ⟨s.peers.records.map (fun r => if r.station = n then r.recalled else r), s.peers.lossList,
          s.peers.asking.map (fun a => { a with owned := a.owned && decide (a.target ≠ n) })⟩
      notices := s.notices.offer ⟨.peer .recallDone n, s.control.clock⟩ } := by
  unfold State.recoveryComplete
  rw [State.disown_eq]
  rfl

/-- Recoveries of a list of stations: each record among them is recalled, and the notices follow the list. -/
theorem State.foldl_recoveryComplete_eq (l : List Station) (s : State) :
    l.foldl State.recoveryComplete s = { s with
      peers :=
        ⟨s.peers.records.map (fun r => if r.station ∈ l then r.recalled else r), s.peers.lossList,
          s.peers.asking.map (fun a => { a with owned := a.owned && decide (a.target ∉ l) })⟩
      notices := l.foldl (fun u m => u.offer ⟨.peer .recallDone m, s.control.clock⟩) s.notices } := by
  induction l generalizing s with
  | nil => simp
  | cons n l ih =>
    have hrecords : (s.peers.records.map (fun r => if r.station = n then r.recalled else r)).map
        (fun r => if r.station ∈ l then r.recalled else r) =
          s.peers.records.map (fun r => if r.station ∈ n :: l then r.recalled else r) := by
      rw [List.map_map]
      refine List.map_congr_left fun r _ => ?_
      have hkept : r.recalled.station = r.station := rfl
      have htwice : r.recalled.recalled = r.recalled := rfl
      by_cases hn : r.station = n
      · simp [hn, hkept, htwice]
      · simp [hn]
    have hasking : (s.peers.asking.map (fun a => { a with owned := a.owned && decide (a.target ≠ n) })).map
        (fun a => { a with owned := a.owned && decide (a.target ∉ l) }) =
          s.peers.asking.map (fun a => { a with owned := a.owned && decide (a.target ∉ n :: l) }) := by
      rw [Option.map_map]
      congr 1
      funext a
      simp [Bool.and_assoc]
    rw [List.foldl_cons, ih, State.recoveryComplete_eq]
    simp only [hrecords, hasking]
    rfl

/-! ### The join recall -/

/-- Two records of one station in a sorted table are the same. -/
theorem PeerRecord.eq_of_station {l : List PeerRecord} (h : tableSorted (fun r : PeerRecord => r.station.toNat) l)
    {r x : PeerRecord} (hr : r ∈ l) (hx : x ∈ l) (hstation : r.station = x.station) : r = x := by
  have hfound := tableFind_of_mem h hr
  rw [hstation, tableFind_of_mem h hx] at hfound
  exact (Option.some.inj hfound).symm

theorem PointTable.mem_validSet {t : PointTable} {n : Station} {i : Index} :
    IndexSet.mem (t.validSet n) i = true ↔ ∃ e ∈ t.mirrored, e.key = ⟨n, i⟩ ∧ e.state = .valid := by
  unfold PointTable.validSet
  rw [IndexSet.mem_ofList_iff, List.mem_map]
  constructor
  · rintro ⟨e, he, rfl⟩
    obtain ⟨hmem, htest⟩ := List.mem_filter.1 he
    obtain ⟨hn, hvalid⟩ := Bool.and_eq_true_iff.1 htest
    obtain rfl := eq_of_beq hn
    exact ⟨e, hmem, rfl, eq_of_beq hvalid⟩
  · rintro ⟨e, he, hkey, hvalid⟩
    exact ⟨e, List.mem_filter.2 ⟨he, by simp [hkey, hvalid]⟩, by rw [hkey]⟩

theorem PeerRecord.mem_bounded {r : PeerRecord} {i : Index} :
    IndexSet.mem r.bounded i = true ↔ IndexSet.mem r.interest i = true ∧ ∀ p ∈ r.published, IndexSet.mem p i = true := by
  unfold PeerRecord.bounded
  cases r.published <;> simp

theorem State.mem_joinNeed {s : State} {r : PeerRecord} {i : Index} :
    IndexSet.mem (s.joinNeed r) i = true ↔
      IndexSet.mem r.interest i = true ∧ (∀ p ∈ r.published, IndexSet.mem p i = true) ∧
        ∀ e ∈ s.points.mirrored, e.key = ⟨r.station, i⟩ → e.state ≠ .valid := by
  unfold State.joinNeed
  rw [IndexSet.mem_diff, Bool.and_eq_true, Bool.not_eq_true', PeerRecord.mem_bounded, and_assoc, Bool.eq_false_iff, Ne,
    PointTable.mem_validSet]
  simp only [not_exists, not_and, ne_eq]

theorem PeerRecord.joins_eq (r : PeerRecord) :
    r.joins = (decide (r.state = .live ∨ r.state = .recovering) && decide (r.interest ≠ 0)) := by
  unfold PeerRecord.joins
  rw [bne_eq_decide_ne, Bool.decide_or]
  rfl

/-- A record after the join recall: its recall begun afresh, its recovery complete, or as it was (R168). -/
def State.joined (s : State) (r : PeerRecord) : PeerRecord :=
  if r.joins = true ∧ s.joinNeed r ≠ 0 then r.beginRecall (s.joinNeed r)
  else if r.joins = true ∧ r.state = .recovering then r.recalled
  else r

/-- In a sorted table the stations whose recovery completes name just the records of which that holds. -/
theorem State.mem_joinDone {s : State} (h : tableSorted (fun r : PeerRecord => r.station.toNat) s.peers.records)
    {r : PeerRecord} (hr : r ∈ s.peers.records) :
    r.station ∈ s.joinDone ↔ r.joins = true ∧ s.joinNeed r = 0 ∧ r.state = .recovering := by
  have htest : ∀ x : PeerRecord, (x.joins && s.joinNeed x == 0 && x.state == .recovering) = true ↔
      x.joins = true ∧ s.joinNeed x = 0 ∧ x.state = .recovering := by
    intro x
    simp [and_assoc]
  unfold State.joinDone
  rw [List.mem_map]
  constructor
  · rintro ⟨x, hx, hstation⟩
    obtain ⟨hmem, hdone⟩ := List.mem_filter.1 hx
    obtain rfl := PeerRecord.eq_of_station h hmem hr hstation
    exact (htest x).1 hdone
  · exact fun hdone => ⟨r, List.mem_filter.2 ⟨hr, (htest r).2 hdone⟩, rfl⟩

theorem State.joined_eq {s : State} (h : tableSorted (fun r : PeerRecord => r.station.toNat) s.peers.records)
    {r : PeerRecord} (hr : r ∈ s.peers.records) :
    (if (s.joinRecord r).station ∈ s.joinDone then (s.joinRecord r).recalled else s.joinRecord r) = s.joined r := by
  have hstation : (s.joinRecord r).station = r.station := s.keepsPresence_joinRecord.station r
  have hbegun : (r.joins && s.joinNeed r != 0) = true ↔ r.joins = true ∧ s.joinNeed r ≠ 0 := by
    rw [Bool.and_eq_true, bne_iff_ne]
  rw [hstation, if_congr (State.mem_joinDone h hr) rfl rfl]
  unfold State.joinRecord State.joined
  rw [if_congr hbegun rfl rfl]
  by_cases hj : r.joins = true
  · by_cases hneed : s.joinNeed r = 0
    · simp only [hj, hneed, true_and, ne_eq, not_true, if_false]
    · simp only [hj, hneed, true_and, ne_eq, not_false_eq_true, if_true, false_and, if_false]
  · simp only [hj, Bool.false_eq_true, false_and, if_false]

/-- The join recall, every block at once. -/
theorem State.joinRecall_eq {s : State} (h : tableSorted (fun r : PeerRecord => r.station.toNat) s.peers.records) :
    s.joinRecall = { s with
      peers := { s.peers with
        records := s.peers.records.map s.joined
        asking := s.peers.asking.map (fun a => { a with owned := a.owned && decide (a.target ∉ s.joinDone) }) }
      arbiter := { s.arbiter with
        wants := { s.arbiter.wants with
          ask := (s.peers.records.map s.joined).any (fun r => r.askDue) && s.peers.asking.isNone } }
      notices := (freeOrder s.freeCount s.joinDone).foldl
        (fun u m => u.offer ⟨.peer .recallDone m, s.control.clock⟩) s.notices
      freeCount := s.freeCount + 1 } := by
  have hmem : ∀ n : Station, n ∈ freeOrder s.freeCount s.joinDone ↔ n ∈ s.joinDone :=
    fun n => (freeOrder_perm _ _).mem_iff
  have hrecords : (s.peers.records.map s.joinRecord).map (fun r => if r.station ∈ s.joinDone then r.recalled else r) =
      s.peers.records.map s.joined := by
    rw [List.map_map]
    exact List.map_congr_left fun r hr => State.joined_eq h hr
  unfold State.joinRecall
  dsimp only
  rw [State.foldl_recoveryComplete_eq, State.judgeAsk_eq]
  simp only [hmem, State.setPeers_peers, hrecords, Option.isNone_map]
  rfl

theorem State.joinExpires_eq {s : State} {n : Station}
    (h : tableSorted (fun r : PeerRecord => r.station.toNat) s.peers.records) (hn : s.control.station = some n) :
    s.joinExpires = { s.joinRecall with
      control := { s.control with state := .inService, joinTimer := .stopped }
      notices := s.joinRecall.notices.offer ⟨.state n .inService, s.control.clock⟩ } := by
  unfold State.joinExpires
  rw [State.joinRecall_eq h, ← State.ownNumber_of_station hn]
  rfl

end Sys2Proof.Machine

open Sys2Proof Sys2Proof.Machine

/-- Settles O54, from the closed form of the join recall. -/
theorem joinExpiryRecallsWhatIsMissing : Obligations.JoinExpiryRecallsWhatIsMissing := by
  intro s need joins hsorted hneed hjoins
  obtain rfl : need = s.joinNeed := funext fun r =>
    IndexSet.ext fun i => Bool.eq_iff_iff.2 ((hneed r i).trans State.mem_joinNeed.symm)
  obtain rfl : joins = PeerRecord.joins := funext fun r => (hjoins r).trans r.joins_eq.symm
  have hdone : (fun r : PeerRecord => r.joins && decide (s.joinNeed r = 0 ∧ r.state = .recovering)) =
      fun r => r.joins && s.joinNeed r == 0 && r.state == .recovering := by
    funext r
    rw [Bool.decide_and, Bool.and_assoc]
    rfl
  refine ⟨fun hnot => congrArg _ (if_neg fun hdue => hnot ((Timer.isDue_iff _).1 hdue)),
    s.peers.records.map s.joined, s.joinDone, freeOrder s.freeCount s.joinDone, rfl, ?_, freeOrder_perm _ _,
    State.joinRecall_eq hsorted, fun n hn hdue => ?_⟩
  · rw [hdone]
    rfl
  · rw [← State.joinExpires_eq hsorted hn]
    exact congrArg _ (if_pos ((Timer.isDue_iff _).2 hdue))
end

section
/-! PROOFS. The classification of a good frame reworks its sender's record, step by step. -/

namespace Sys2Proof.Machine

open Sys2Proof

namespace PeerUnit.Reworked

variable {u : PeerUnit} {s : State} {f : Frame} {r : PeerRecord}

/-! ### The steps -/

theorem checkSequence (h : u.Reworked f.sender r s.peers) (carried next : Byte) :
    u.Reworked f.sender (r.checked carried next) (s.checkSequence f.sender carried next).peers := by
  have hexpects := h.mapPeer (f := fun r => { r with expected := some next }) (fun _ => rfl)
  unfold PeerRecord.checked
  split
  next hmet =>
    rw [State.checkSequence_met next h.self hmet]
    exact hexpects
  next hnot =>
    obtain ⟨hknown, hother⟩ := not_or.1 hnot
    obtain ⟨e, he⟩ := Option.ne_none_iff_exists'.1 hknown
    have hgap : s.checkSequence f.sender carried next = s.takeGap f.sender next :=
      State.checkSequence_gap next h.self he (fun heq => hother (by rw [he, heq]))
    rw [hgap]
    exact mapPeer (s := s.setPoints (s.points.suspectAll f.sender)) h (f := fun r => r.gapTaken next) (fun _ => rfl)

theorem sequenceStep (h : u.Reworked f.sender r s.peers) :
    u.Reworked f.sender (r.sequenced f) (s.sequenceStep f).peers := by
  unfold State.sequenceStep PeerRecord.sequenced
  cases f.body with
  | update q items => exact h.checkSequence q (q + 1)
  | beacon q p set => exact h.checkSequence q q
  | hello | ask | resend => exact h

theorem contentsStep (h : u.Reworked f.sender r s.peers) :
    u.Reworked f.sender (r.informed f) (s.contentsStep f).peers := by
  unfold State.contentsStep PeerRecord.informed
  cases f.body with
  | beacon q p set =>
    dsimp only
    unfold State.takeBeacon
    rw [h.self]
    exact mapPeer (s := s.setPoints (s.points.staleThese f.sender (IndexSet.diff r.need set))) h
      (f := fun r => { r with period := some p, published := some set, need := r.need &&& set, beaconWanted := false })
      (fun _ => rfl)
  | hello p => exact h.mapPeer (f := fun r => { r with period := some p }) (fun _ => rfl)
  | update | ask | resend => exact h

theorem itemsStep (h : u.Reworked f.sender r s.peers) :
    u.Reworked f.sender (PeerRecord.shed f.body.items r) (s.itemsStep f).peers := by
  rw [State.itemsStep_eq h.self]
  refine mapPeer ?_ (fun _ => rfl)
  rw [State.foldl_takeItem_peers]
  exact h

theorem recoveryComplete (h : u.Reworked f.sender r s.peers) :
    u.Reworked f.sender r.recalled (s.recoveryComplete f.sender).peers :=
  (h.mapPeer (f := PeerRecord.recalled) (fun _ => rfl)).disown f.sender

theorem recoveryStep (h : u.Reworked f.sender r s.peers) :
    u.Reworked f.sender r.recovered (s.recoveryStep f.sender).peers := by
  unfold PeerRecord.recovered
  split
  next hdone =>
    rw [State.recoveryStep_completes h.self hdone]
    exact h.recoveryComplete
  next hnot =>
    rw [State.recoveryStep_keeps h.self hnot]
    exact h

theorem metStep (h : u.Reworked f.sender r s.peers) (before : IndexSet) :
    u.Reworked f.sender (r.tested (u.asks f.sender) s.recallStart before) (s.metStep f.sender before).peers := by
  rw [State.metStep_eq h.self]
  unfold State.meetsAt PeerRecord.tested
  rw [h.asks]
  split
  · exact h.mapPeer (f := fun r => r.met s.recallStart) (fun _ => rfl)
  · exact h

/-! ### The classification -/

/-- Steps 5 to 7 after the sequence check. -/
theorem settled (h : u.Reworked f.sender r s.peers) :
    u.Reworked f.sender (r.settled f (u.asks f.sender) s.recallStart)
      ((((s.contentsStep f).itemsStep f).recoveryStep f.sender).metStep f.sender (s.peers.needOf f.sender)).peers := by
  have hside := ((PeerSide.contentsStep s f).trans (.itemsStep _ f)).trans (.recoveryStep _ f.sender)
  have hsettled := h.contentsStep.itemsStep.recoveryStep.metStep r.need
  rw [hside.recallStart] at hsettled
  rw [h.needOf]
  exact hsettled

/-- Steps 4 to 7, of a sender that has a record. -/
theorem classifyRecord (hr : s.peers.find? f.sender = some r) :
    (s.peers.unlisted f.sender).Reworked f.sender
      (r.classified f s.control.timing (s.peers.asks f.sender) s.recallStart) (s.classifyRecord f).peers := by
  have hside := (PeerSide.hear s f).trans (.sequenceStep _ f)
  have hsettled := (State.reworked_hear hr).sequenceStep.settled
  rw [hside.recallStart] at hsettled
  exact hsettled

end PeerUnit.Reworked

/-- Step 3, as the sender leaves the loss list. -/
theorem State.reworked_checkEpoch {s : State} {f : Frame} {r : PeerRecord} (hr : s.peers.find? f.sender = some r) :
    (s.peers.unlisted f.sender).Reworked f.sender (r.atEpoch f) ((s.checkEpoch r f).peers.unlisted f.sender) := by
  unfold PeerRecord.atEpoch
  split
  next he =>
    rw [State.checkEpoch_same he]
    exact .refl hr
  next he =>
    have hrestarted := ((PeerUnit.Reworked.refl hr).mapPeer (PeerRecord.restarted_station f)).disown f.sender
    have htarget := hrestarted.target
    rw [State.disown_asking] at htarget
    rw [State.checkEpoch_other he]
    refine ⟨hrestarted.stations, hrestarted.self, hrestarted.others, ?_, htarget⟩
    simp only [PeerUnit.unlisted, List.filter_filter, Bool.and_self]

/-- The classification of a frame whose sender has a record (R54). -/
theorem State.reworked_classify_known {s : State} {f : Frame} {r : PeerRecord} (hr : s.peers.find? f.sender = some r) :
    (s.peers.unlisted f.sender).Reworked f.sender
      ((r.atEpoch f).classified f s.control.timing (s.peers.asks f.sender) s.recallStart) (s.classify f).peers := by
  have hepoch := State.reworked_checkEpoch hr
  have hside := PeerSide.checkEpoch s r f
  have hclassified := PeerUnit.Reworked.classifyRecord (s := s.checkEpoch r f) hepoch.self
  have hasks : (s.checkEpoch r f).peers.asks f.sender = s.peers.asks f.sender := hepoch.asks f.sender
  rw [hside.control_timing, hside.recallStart, hasks] at hclassified
  rw [State.classify_known hr]
  exact hepoch.trans hclassified

/-- The record of a new sender, before the frame is taken at it (R57). -/
def State.newRecord (s : State) (f : Frame) : PeerRecord := (s.blankRecord f).freshStart f.isHello

theorem State.newRecord_station (s : State) (f : Frame) : (s.newRecord f).station = f.sender := by
  unfold State.newRecord
  rw [PeerRecord.freshStart_eq]
  rfl

theorem State.find?_createRecord_self (s : State) (f : Frame) :
    (s.createRecord f).peers.find? f.sender = some (s.newRecord f) := by
  have hfound := tableFind_tableInsert_self (key := fun r : PeerRecord => r.station.toNat) (s.newRecord f) s.peers.records
  rw [State.newRecord_station] at hfound
  exact hfound

/-- The classification of a frame whose sender gets a record, in the table `t` that has room for it. -/
theorem State.reworked_classify_new {s t : State} {f : Frame} (hnone : s.peers.find? f.sender = none)
    (hroom : s.makeRoom = some t) :
    ((t.createRecord f).peers.unlisted f.sender).Reworked f.sender
      ((t.newRecord f).classified f s.control.timing ((t.createRecord f).peers.asks f.sender) s.recallStart)
      (s.classify f).peers := by
  have hside : PeerSide s (t.createRecord f) := ((PeerSide.makeRoom hroom).trans (.setPeers _ _)).trans (.offer _ _)
  have hclassified := PeerUnit.Reworked.classifyRecord (s := t.createRecord f) (t.find?_createRecord_self f)
  rw [hside.control_timing, hside.recallStart] at hclassified
  rw [State.classify_new hnone hroom]
  exact hclassified

end Sys2Proof.Machine
end

section
/-! PROOFS. What a good frame leaves in its sender's record, whatever station control does at it (O30). -/

namespace Sys2Proof.Machine

open Sys2Proof

/-! ### The link to a peer -/

/-- A record of the same station with the same interest, epoch, expectation, published set, period and silence timer,
neither SILENT nor LOST if the other is neither. -/
structure PeerRecord.SameLink (r x : PeerRecord) : Prop where
  station : x.station = r.station
  interest : x.interest = r.interest
  epoch : x.epoch = r.epoch
  expected : x.expected = r.expected
  published : x.published = r.published
  period : x.period = r.period
  silence : x.silence = r.silence
  here : r.isAway = false → x.isAway = false

namespace PeerRecord.SameLink

theorem refl (r : PeerRecord) : r.SameLink r := ⟨rfl, rfl, rfl, rfl, rfl, rfl, rfl, id⟩

theorem trans {r x y : PeerRecord} (h : r.SameLink x) (k : x.SameLink y) : r.SameLink y :=
  ⟨k.station.trans h.station, k.interest.trans h.interest, k.epoch.trans h.epoch, k.expected.trans h.expected,
    k.published.trans h.published, k.period.trans h.period, k.silence.trans h.silence, fun hr => k.here (h.here hr)⟩

theorem recalled (r : PeerRecord) : r.SameLink r.recalled := ⟨rfl, rfl, rfl, rfl, rfl, rfl, rfl, fun _ => rfl⟩

theorem beginRecall (r : PeerRecord) (need : IndexSet) : r.SameLink (r.beginRecall need) :=
  ⟨rfl, rfl, rfl, rfl, rfl, rfl, rfl, fun _ => rfl⟩

theorem met (r : PeerRecord) (start : Timer) : r.SameLink (r.met start) := ⟨rfl, rfl, rfl, rfl, rfl, rfl, rfl, id⟩

theorem recovered (r : PeerRecord) : r.SameLink r.recovered := by
  unfold PeerRecord.recovered
  split
  · exact .recalled r
  · exact .refl r

theorem tested (asked : Bool) (start : Timer) (before : IndexSet) (r : PeerRecord) :
    r.SameLink (r.tested asked start before) := by
  unfold PeerRecord.tested
  split
  · exact .met r start
  · exact .refl r

theorem joinRecord (s : State) (r : PeerRecord) : r.SameLink (s.joinRecord r) := by
  unfold State.joinRecord
  split
  · exact .beginRecall r _
  · exact .refl r

theorem atStation {g : PeerRecord → PeerRecord} (hg : ∀ r : PeerRecord, r.SameLink (g r)) (n : Station) (r : PeerRecord) :
    r.SameLink (if r.station = n then g r else r) := by
  split
  · exact hg r
  · exact .refl r

/-- Of the frame's contents the settling of the recall keeps the link as the frame has informed it. -/
theorem settled (f : Frame) (asked : Bool) (start : Timer) (r : PeerRecord) :
    (r.informed f).SameLink (r.settled f asked start) :=
  (show (r.informed f).SameLink (PeerRecord.shed f.body.items (r.informed f)) from
    ⟨rfl, rfl, rfl, rfl, rfl, rfl, rfl, id⟩).trans ((recovered _).trans (tested _ _ _ _))

end PeerRecord.SameLink

/-- The record as a good frame leaves it: here, at the frame's epoch, its silence timer at three of its beacon periods,
with what the frame's body says (R57 to R62). -/
structure PeerRecord.TakenFrom (f : Frame) (t : Timing) (r : PeerRecord) : Prop where
  epoch : r.epoch = f.epoch
  here : r.isAway = false
  silence : r.silence = .running .silence (msPeriods (3 * r.periodMs t))
  update : ∀ q items, f.body = .update q items → r.expected = some (q + 1)
  beacon : ∀ q p set, f.body = .beacon q p set → r.expected = some q ∧ r.period = some p ∧ r.published = some set
  hello : ∀ p, f.body = .hello p → r.period = some p

theorem PeerRecord.TakenFrom.congr {f : Frame} {t : Timing} {r x : PeerRecord} (h : r.TakenFrom f t)
    (hx : r.SameLink x) : x.TakenFrom f t where
  epoch := hx.epoch.trans h.epoch
  here := hx.here h.here
  silence := by
    unfold PeerRecord.periodMs
    rw [hx.silence, hx.period]
    exact h.silence
  update q items hb := hx.expected.trans (h.update q items hb)
  beacon q p set hb := by
    rw [hx.expected, hx.period, hx.published]
    exact h.beacon q p set hb
  hello p hb := hx.period.trans (h.hello p hb)

/-- The sequence check gives the record the frame's expectation and keeps epoch, presence, period and silence timer. -/
theorem PeerRecord.checked_link (carried next : Byte) (r : PeerRecord) :
    (r.checked carried next).expected = some next ∧ (r.checked carried next).epoch = r.epoch ∧
      (r.isAway = false → (r.checked carried next).isAway = false) ∧ (r.checked carried next).period = r.period ∧
      (r.checked carried next).silence = r.silence := by
  unfold PeerRecord.checked
  split
  · exact ⟨rfl, rfl, id, rfl, rfl⟩
  · refine ⟨rfl, rfl, fun h => ?_, rfl, rfl⟩
    exact Bool.eq_false_iff.2 fun ha =>
      Bool.eq_false_iff.1 h ((PeerRecord.keepsPresence_gapTaken next).away r ha)

theorem PeerRecord.welcomed_epoch (f : Frame) (t : Timing) (r : PeerRecord) : (r.welcomed f t).epoch = r.epoch := by
  unfold PeerRecord.welcomed
  split <;> rfl

theorem PeerRecord.welcomed_period (f : Frame) (t : Timing) (r : PeerRecord) : (r.welcomed f t).period = r.period := by
  unfold PeerRecord.welcomed
  split <;> rfl

/-- A record at the frame's epoch is as the frame leaves it once the frame has been taken. -/
theorem PeerRecord.takenFrom_classified {f : Frame} {r : PeerRecord} (h : r.epoch = f.epoch) (t : Timing) (asked : Bool)
    (start : Timer) : (r.classified f t asked start).TakenFrom f t := by
  refine PeerRecord.TakenFrom.congr ?_ (.settled f asked start _)
  have hepoch : (r.welcomed f t).epoch = f.epoch := (PeerRecord.welcomed_epoch f t r).trans h
  have hhere : (r.welcomed f t).isAway = false := r.heard_present f t
  have hsilence : (r.welcomed f t).silence = .running .silence ((r.welcomed f t).silenceFull f t) := by
    rw [PeerRecord.welcomed_silence]
    unfold PeerRecord.silenceFull PeerRecord.periodMs
    rw [PeerRecord.welcomed_period]
  revert hepoch hhere hsilence
  generalize r.welcomed f t = x
  intro hepoch hhere hsilence
  unfold PeerRecord.silenceFull at hsilence
  unfold PeerRecord.sequenced PeerRecord.informed
  cases hb : f.body with
  | update q items =>
    obtain ⟨hexpected, hepoch', hhere', hperiod, hsilence'⟩ := x.checked_link q (q + 1)
    refine ⟨hepoch'.trans hepoch, hhere' hhere, ?_, fun q' items' hb' => ?_, by simp [hb], by simp [hb]⟩
    · rw [hb] at hsilence
      unfold PeerRecord.periodMs
      rw [hsilence', hperiod, hsilence]
      rfl
    · cases hb.symm.trans hb'
      exact hexpected
  | beacon q p set =>
    obtain ⟨hexpected, hepoch', hhere', _, hsilence'⟩ := x.checked_link q q
    refine ⟨hepoch'.trans hepoch, hhere' hhere, ?_, by simp [hb], fun q' p' set' hb' => ?_, by simp [hb]⟩
    · rw [hb] at hsilence
      exact hsilence'.trans hsilence
    · cases hb.symm.trans hb'
      exact ⟨hexpected, rfl, rfl⟩
  | hello p =>
    rw [hb] at hsilence
    refine ⟨hepoch, hhere, hsilence, by simp [hb], by simp [hb], fun p' hb' => ?_⟩
    cases hb.symm.trans hb'
    rfl
  | ask | resend =>
    rw [hb] at hsilence
    exact ⟨hepoch, hhere, hsilence, by simp [hb], by simp [hb], by simp [hb]⟩

end Sys2Proof.Machine
end

section
/-! PROOFS. A good frame at its sender's record, from the line to the end of the step (O30). -/

namespace Sys2Proof.Machine

open Sys2Proof

/-! ### A sender that has a record or gets one -/

/-- The sender has a record, or there is room for one, in a full table by reclaim (R55). -/
def State.Admits (s : State) (n : Station) : Prop :=
  (∃ r, s.peers.find? n = some r) ∨ s.peers.records.length < 32 ∨ s.peers.lossList ≠ [] ∨
    ∃ r ∈ s.peers.records, r.interest = 0

theorem State.exists_makeRoom {s : State} {n : Station} (h : s.Admits n) (hnone : s.peers.find? n = none) :
    ∃ t, s.makeRoom = some t := by
  by_cases hroom : s.peers.records.length < 32
  · exact ⟨s, if_pos hroom⟩
  rw [State.makeRoom_full (Nat.le_of_not_lt hroom)]
  suffices hreclaim : ∃ m, s.peers.reclaimStation? = some m by
    obtain ⟨m, hm⟩ := hreclaim
    exact ⟨_, by rw [hm, Option.map_some]⟩
  unfold PeerUnit.reclaimStation?
  cases hlist : s.peers.lossList with
  | cons m l => exact ⟨m, rfl⟩
  | nil =>
    obtain ⟨r, hr, hinterest⟩ : ∃ r ∈ s.peers.records, r.interest = 0 := by
      rcases h with ⟨r, hr⟩ | hlt | hne | hfree
      · rw [hnone] at hr
        cases hr
      · exact absurd hlt hroom
      · exact absurd hlist hne
      · exact hfree
    have hsome : (s.peers.records.find? (fun r => r.interest == 0)).isSome = true :=
      List.find?_isSome.2 ⟨r, hr, by simp [hinterest]⟩
    obtain ⟨x, hx⟩ := Option.isSome_iff_exists.1 hsome
    exact ⟨x.station, by simp only [hx, Option.map_some]⟩

theorem PeerRecord.atEpoch_epoch (f : Frame) (r : PeerRecord) : (r.atEpoch f).epoch = f.epoch := by
  unfold PeerRecord.atEpoch
  split
  next h => exact h
  next =>
    unfold PeerRecord.restarted
    rw [PeerRecord.freshStart_eq]

theorem State.newRecord_epoch (s : State) (f : Frame) : (s.newRecord f).epoch = f.epoch := by
  unfold State.newRecord
  rw [PeerRecord.freshStart_eq]
  rfl

/-- After the classification the sender's record is as the frame leaves it. -/
theorem State.classify_taken {s : State} {f : Frame} (h : s.Admits f.sender) :
    ∃ r, (s.classify f).peers.find? f.sender = some r ∧ r.TakenFrom f s.control.timing := by
  cases hr : s.peers.find? f.sender with
  | some r => exact ⟨_, (State.reworked_classify_known hr).self, PeerRecord.takenFrom_classified (r.atEpoch_epoch f) _ _ _⟩
  | none =>
    obtain ⟨t, hroom⟩ := State.exists_makeRoom h hr
    exact ⟨_, (State.reworked_classify_new hr hroom).self, PeerRecord.takenFrom_classified (t.newRecord_epoch f) _ _ _⟩

/-! ### What the rest of the step leaves alone -/

/-- The records keep their places and their links, and the loss list stays; frame unit, line, port, own points and timing
stay too. -/
structure State.KeepsLinks (s t : State) : Prop where
  records : ∃ g : PeerRecord → PeerRecord, t.peers.records = s.peers.records.map g ∧ ∀ r : PeerRecord, r.SameLink (g r)
  lossList : t.peers.lossList = s.peers.lossList
  frame : t.frame = s.frame
  line : t.line = s.line
  port : t.port = s.port
  own : t.points.own = s.points.own
  timing : t.control.timing = s.control.timing

namespace State.KeepsLinks

variable {s t u : State}

theorem of_eq (hpeers : t.peers = s.peers) (hframe : t.frame = s.frame) (hline : t.line = s.line)
    (hport : t.port = s.port) (hown : t.points.own = s.points.own) (htiming : t.control.timing = s.control.timing) :
    s.KeepsLinks t :=
  ⟨⟨id, by rw [hpeers, List.map_id], PeerRecord.SameLink.refl⟩, by rw [hpeers], hframe, hline, hport, hown, htiming⟩

theorem refl (s : State) : s.KeepsLinks s := .of_eq rfl rfl rfl rfl rfl rfl

theorem trans (h : s.KeepsLinks t) (k : t.KeepsLinks u) : s.KeepsLinks u := by
  obtain ⟨g, hg, hlink⟩ := h.records
  obtain ⟨g', hg', hlink'⟩ := k.records
  exact ⟨⟨g' ∘ g, by rw [hg', hg, List.map_map], fun r => (hlink r).trans (hlink' (g r))⟩, k.lossList.trans h.lossList,
    k.frame.trans h.frame, k.line.trans h.line, k.port.trans h.port, k.own.trans h.own, k.timing.trans h.timing⟩

theorem mapRecords {g : PeerRecord → PeerRecord} (hg : ∀ r : PeerRecord, r.SameLink (g r)) (s : State) :
    s.KeepsLinks (s.setPeers { s.peers with records := s.peers.records.map g }) :=
  ⟨⟨g, rfl, hg⟩, rfl, rfl, rfl, rfl, rfl, rfl⟩

theorem mapPeer {g : PeerRecord → PeerRecord} (hg : ∀ r : PeerRecord, r.SameLink (g r)) (s : State) (n : Station) :
    s.KeepsLinks (s.mapPeer n g) := .mapRecords (PeerRecord.SameLink.atStation hg n) s

theorem joinRecall (s : State) : s.KeepsLinks s.joinRecall := by
  have hjoined := mapRecords (PeerRecord.SameLink.joinRecord s) s
  have hdone : ∀ (l : List Station) (u : State), u.KeepsLinks (l.foldl State.recoveryComplete u) := by
    intro l u
    rw [State.foldl_recoveryComplete_eq]
    refine ⟨⟨_, rfl, fun r => ?_⟩, rfl, rfl, rfl, rfl, rfl, rfl⟩
    split
    · exact .recalled r
    · exact .refl r
  refine (hjoined.trans (hdone (freeOrder s.freeCount s.joinDone) _)).trans ?_
  exact .of_eq rfl rfl rfl rfl rfl rfl

theorem resumed (s : State) : s.KeepsLinks s.resumed := by
  have hwaits := mapRecords (g := fun r => { r with recallWait := r.recallWait.resume })
    (fun _ => ⟨rfl, rfl, rfl, rfl, rfl, rfl, rfl, id⟩) s
  refine hwaits.trans ?_
  unfold State.resumed
  dsimp only
  split
  · exact .of_eq rfl rfl rfl rfl rfl rfl
  · rw [State.startPublishing_eq _ rfl]
    exact .of_eq rfl rfl rfl rfl rfl rfl

theorem enterService (s : State) : s.KeepsLinks (s.raiseBeacon.enter .inService) := .of_eq rfl rfl rfl rfl rfl rfl

/-- Station control's event keeps the links, the exit from LISTENING(LINE_TROUBLE) included (R169, R172). -/
theorem controlEvent (s : State) (f : Frame) : s.KeepsLinks (s.controlEvent f) := by
  have hexit : ∀ u : State, u.KeepsLinks u.troubleExit := by
    intro u
    rw [State.troubleExit_eq]
    split
    · exact ((resumed u).trans (joinRecall _)).trans (enterService _)
    · exact (resumed u).trans (enterService _)
  have hreport : ∀ u : State, u.KeepsLinks u.goodFrameReport := by
    intro u
    unfold State.goodFrameReport
    split
    · split
      · exact .of_eq rfl rfl rfl rfl rfl rfl
      · exact hexit u
    · exact .refl u
  have hhello : s.KeepsLinks s.takeHello := by
    unfold State.takeHello
    split
    · exact .of_eq rfl rfl rfl rfl rfl rfl
    · exact .refl s
  unfold State.controlEvent
  split
  · exact hhello.trans (hreport _)
  · exact hreport s

theorem publicationEvent (s : State) (f : Frame) : s.KeepsLinks (s.publicationEvent f) := by
  unfold State.publicationEvent
  split
  · split
    · unfold State.takeRequest
      dsimp only
      split
      · exact .of_eq rfl rfl rfl rfl rfl rfl
      · exact .of_eq rfl rfl rfl rfl rfl rfl
    · exact .refl s
  all_goals exact .refl s

theorem mergeAsk (s : State) (n : Station) (asked : IndexSet) : s.KeepsLinks (s.mergeAsk n asked) := by
  have htest : ∀ u : State, u.KeepsLinks (u.testMet n) := by
    intro u
    unfold State.testMet
    split
    · exact .refl u
    · split
      · exact .mapPeer (fun r => .met r u.recallStart) u n
      · exact .refl u
  unfold State.mergeAsk
  split
  · exact .refl s
  · split
    · have hcovered := mapPeer (g := fun r => { r with covered := r.covered ||| asked })
        (fun _ => ⟨rfl, rfl, rfl, rfl, rfl, rfl, rfl, id⟩) s n
      exact (hcovered.trans (htest _)).trans (.of_eq rfl rfl rfl rfl rfl rfl)
    · exact .refl s

theorem find? (h : s.KeepsLinks t) {n : Station} {r : PeerRecord} (hr : s.peers.find? n = some r) :
    ∃ x, t.peers.find? n = some x ∧ r.SameLink x := by
  obtain ⟨g, hg, hlink⟩ := h.records
  exact ⟨g r, by rw [PeerUnit.find?_map hg (fun r => (hlink r).station), hr]; rfl, hlink r⟩

theorem admits (h : s.KeepsLinks t) {n : Station} (hs : s.Admits n) : t.Admits n := by
  obtain ⟨g, hg, hlink⟩ := h.records
  rcases hs with ⟨r, hr⟩ | hlt | hlist | ⟨r, hr, hinterest⟩
  · obtain ⟨x, hx, _⟩ := h.find? hr
    exact .inl ⟨x, hx⟩
  · exact .inr (.inl (by rw [hg, List.length_map]; exact hlt))
  · exact .inr (.inr (.inl (by rw [h.lossList]; exact hlist)))
  · exact .inr (.inr (.inr ⟨g r, by rw [hg]; exact List.mem_map_of_mem hr, by rw [(hlink r).interest]; exact hinterest⟩))

end State.KeepsLinks

/-! ### The dispatch -/

/-- The state after a good frame: its sender's record is as the frame leaves it, and frame unit, line, port and own points
are as they were counted. -/
structure State.Reached (s : State) (f : Frame) (t : State) : Prop where
  taken : ∃ r, t.peers.find? f.sender = some r ∧ r.TakenFrom f s.control.timing
  frame : t.frame = s.frame
  line : t.line = s.line
  port : t.port = s.port
  own : t.points.own = s.points.own

theorem State.KeepsLinks.reached {s t u : State} {f : Frame} (h : s.Reached f t) (k : t.KeepsLinks u) :
    s.Reached f u := by
  obtain ⟨r, hr, htaken⟩ := h.taken
  obtain ⟨x, hx, hlink⟩ := k.find? hr
  exact ⟨⟨x, hx, htaken.congr hlink⟩, k.frame.trans h.frame, k.line.trans h.line, k.port.trans h.port, k.own.trans h.own⟩

/-- What has been reached from a state with the same links' timing and blocks has been reached from the first. -/
theorem State.Reached.of_keepsLinks {s u t : State} {f : Frame} (k : s.KeepsLinks u) (h : u.Reached f t) :
    s.Reached f t :=
  ⟨by rw [← k.timing]; exact h.taken, h.frame.trans k.frame, h.line.trans k.line, h.port.trans k.port, h.own.trans k.own⟩

theorem State.reached_peerEvent {s : State} {f : Frame} (h : s.Admits f.sender) : s.Reached f (s.peerEvent f) := by
  have hside := PeerSide.classify s f
  have hclassified : s.Reached f (s.classify f) :=
    ⟨State.classify_taken h, hside.frame, hside.line, hside.port, hside.own⟩
  unfold State.peerEvent
  split
  · dsimp only
    split
    · exact hclassified
    · exact (State.KeepsLinks.mergeAsk _ _ _).reached hclassified
  all_goals exact hclassified

/-- A good frame reaches its sender's record in either order of the blocks (R126, R127; log 13). -/
theorem State.reached_dispatchGood {s : State} {f : Frame} (h : s.Admits f.sender) :
    s.Reached f (s.dispatchGood f) := by
  have hfree : s.KeepsLinks s.bumpFree := .of_eq rfl rfl rfl rfl rfl rfl
  unfold State.dispatchGood
  refine (State.KeepsLinks.publicationEvent _ f).reached ?_
  split
  · split
    · have hcontrol := hfree.trans (.controlEvent _ f)
      exact .of_keepsLinks hcontrol (State.reached_peerEvent (hcontrol.admits h))
    · exact (State.KeepsLinks.controlEvent _ f).reached (.of_keepsLinks hfree (State.reached_peerEvent (hfree.admits h)))
  · exact (State.KeepsLinks.controlEvent _ f).reached (State.reached_peerEvent h)

theorem PeerRecord.isAway_eq_false {r : PeerRecord} (h : r.isAway = false) : r.state = .live ∨ r.state = .recovering := by
  unfold PeerRecord.isAway at h
  cases hs : r.state with
  | live => exact .inl rfl
  | recovering => exact .inr rfl
  | silent | lost => rw [hs] at h; cases h

end Sys2Proof.Machine

open Sys2Proof Sys2Proof.Machine

/-- Settles O30: FRAME_END dispatches the frame, and the dispatch reaches the record of its sender. -/
theorem goodFrameReachesItsPeerRecord : Obligations.GoodFrameReachesItsPeerRecord := by
  intro w f cells s a ha hw he hown hcheck hvalid hsender hadmits
  obtain ⟨⟨r, hr, htaken⟩, hframe, hline, hport, hpoints⟩ := State.reached_dispatchGood (s := s.counted) (f := f) hadmits
  refine ⟨_, r, execFrameEnd_good ha hw he hown hcheck hvalid hsender, ?_, hline, hport, hpoints, hr, htaken.epoch,
    PeerRecord.isAway_eq_false htaken.here, htaken.silence, ?_⟩
  · rw [hframe, ← Tally.rise_eq]
    rfl
  · cases hb : f.body with
    | update q items => exact htaken.update q items hb
    | beacon q p set => exact htaken.beacon q p set hb
    | hello p => exact htaken.hello p hb
    | ask | resend => trivial
end

section
/-! PROOFS. The laws of a peer record's recall and of its silence timer, and what each event of the peer unit makes of a
record that keeps them (R52, R66, R72). -/

namespace Sys2Proof.Machine

open Sys2Proof

/-! ### Index sets -/

theorem IndexSet.subset_trans {s t u : IndexSet} (h : IndexSet.subset s t = true) (k : IndexSet.subset t u = true) :
    IndexSet.subset s u = true :=
  (IndexSet.subset_iff s u).2 fun i hi => (IndexSet.subset_iff t u).1 k i ((IndexSet.subset_iff s t).1 h i hi)

theorem IndexSet.subset_refl (s : IndexSet) : IndexSet.subset s s = true := (IndexSet.subset_iff s s).2 fun _ => id

theorem IndexSet.zero_subset (s : IndexSet) : IndexSet.subset 0 s = true := by simp [IndexSet.subset, IndexSet.diff]

/-- Two sets of which each is a part of the other are equal. -/
theorem IndexSet.eq_of_subset {s t : IndexSet} (h : IndexSet.subset s t = true) (k : IndexSet.subset t s = true) : s = t :=
  IndexSet.ext fun i => Bool.eq_iff_iff.2 ⟨(IndexSet.subset_iff s t).1 h i, (IndexSet.subset_iff t s).1 k i⟩

theorem IndexSet.subset_zero_iff {s : IndexSet} : IndexSet.subset s 0 = true ↔ s = 0 :=
  ⟨fun h => IndexSet.eq_of_subset h (IndexSet.zero_subset s), fun h => h ▸ IndexSet.subset_refl s⟩

theorem IndexSet.ne_zero_of_subset {s t : IndexSet} (h : IndexSet.subset s t = true) (hs : s ≠ 0) : t ≠ 0 :=
  fun ht => hs (IndexSet.subset_zero_iff.1 (ht ▸ h))

theorem IndexSet.subset_left_or (s t : IndexSet) : IndexSet.subset s (s ||| t) = true :=
  (IndexSet.subset_iff _ _).2 fun i hi => by simp [hi]

theorem IndexSet.or_subset {s t u : IndexSet} (hs : IndexSet.subset s u = true) (ht : IndexSet.subset t u = true) :
    IndexSet.subset (s ||| t) u = true := by
  refine (IndexSet.subset_iff _ _).2 fun i hi => ?_
  rw [IndexSet.mem_or, Bool.or_eq_true] at hi
  exact hi.elim ((IndexSet.subset_iff s u).1 hs i) ((IndexSet.subset_iff t u).1 ht i)

/-! ### The laws -/

/-- The two laws of R52 on the need, the relations of R72, and that a due ASK asks for something. -/
structure PeerRecord.RecallHeld (r : PeerRecord) : Prop where
  bounded : IndexSet.subset r.need r.bounded = true
  recovering : r.state = .recovering ↔ r.need ≠ 0
  due : r.askDue = true → r.state = .recovering
  dueWait : r.askDue = true → r.recallWait = .stopped
  waiting : r.recallWait ≠ .stopped → r.state = .recovering
  covered : r.covered ≠ 0 → r.askDue = true
  attempts : r.attempts ≤ 3
  dueAttempts : r.askDue = true → r.attempts ≤ 2
  begun : r.attempts ≠ 0 → r.state = .recovering
  asks : r.askDue = true → IndexSet.subset r.need r.covered = false

/-- A record whose recall is empty. -/
structure PeerRecord.Resting (r : PeerRecord) : Prop where
  state : r.state ≠ .recovering
  need : r.need = 0
  covered : r.covered = 0
  askDue : r.askDue = false
  attempts : r.attempts = 0
  recallWait : r.recallWait = .stopped

/-- A record whose recall has just begun. -/
structure PeerRecord.Beginning (r : PeerRecord) : Prop where
  state : r.state = .recovering
  bounded : IndexSet.subset r.need r.bounded = true
  need : r.need ≠ 0
  covered : r.covered = 0
  attempts : r.attempts = 0
  recallWait : r.recallWait = .stopped

namespace PeerRecord

variable {r x y : PeerRecord}

theorem Resting.recallHeld (h : r.Resting) : r.RecallHeld where
  bounded := by
    rw [h.need]
    exact IndexSet.zero_subset _
  recovering := iff_of_false h.state (not_not_intro h.need)
  due hdue := by rw [h.askDue] at hdue; cases hdue
  dueWait _ := h.recallWait
  waiting hwait := absurd h.recallWait hwait
  covered hcov := absurd h.covered hcov
  attempts := by rw [h.attempts]; decide
  dueAttempts _ := by rw [h.attempts]; decide
  begun hatt := absurd h.attempts hatt
  asks hdue := by rw [h.askDue] at hdue; cases hdue

theorem Beginning.recallHeld (h : r.Beginning) : r.RecallHeld where
  bounded := h.bounded
  recovering := iff_of_true h.state h.need
  due _ := h.state
  dueWait _ := h.recallWait
  waiting _ := h.state
  covered hcov := absurd h.covered hcov
  attempts := by rw [h.attempts]; decide
  dueAttempts _ := by rw [h.attempts]; decide
  begun _ := h.state
  asks _ := by
    rw [h.covered, Bool.eq_false_iff]
    exact fun hsub => h.need (IndexSet.subset_zero_iff.1 hsub)

namespace RecallHeld

/-- Outside RECOVERING the recall is empty. -/
theorem resting (h : r.RecallHeld) (hstate : r.state ≠ .recovering) : r.Resting where
  state := hstate
  need := by_contra fun hneed => hstate (h.recovering.2 hneed)
  askDue := Bool.eq_false_iff.2 fun hdue => hstate (h.due hdue)
  covered := by_contra fun hcov => hstate (h.due (h.covered hcov))
  attempts := by_contra fun hatt => hstate (h.begun hatt)
  recallWait := by_contra fun hwait => hstate (h.waiting hwait)

/-- A change of the recall-wait timer that leaves a stopped one stopped. -/
theorem mapWait (h : r.RecallHeld) {g : Timer → Timer} (hg : g .stopped = .stopped) :
    { r with recallWait := g r.recallWait }.RecallHeld :=
  { h with
    dueWait := fun hdue => (congrArg g (h.dueWait hdue)).trans hg
    waiting := fun hwait => h.waiting fun hstopped => hwait ((congrArg g hstopped).trans hg) }

end RecallHeld

/-! ### Asks -/

/-- A due record met by an ASK, its own or others' (R76, R80). -/
theorem recallHeld_met (hbounded : IndexSet.subset r.need r.bounded = true) (hstate : r.state = .recovering)
    (hneed : r.need ≠ 0) (hattempts : r.attempts ≤ 2) (start : Timer) : (r.met start).RecallHeld where
  bounded := hbounded
  recovering := iff_of_true hstate hneed
  due := nofun
  dueWait := nofun
  waiting _ := hstate
  covered hcov := absurd rfl hcov
  attempts := Nat.succ_le_succ hattempts
  dueAttempts := nofun
  begun _ := hstate
  asks := nofun

theorem RecallHeld.met (h : r.RecallHeld) (hdue : r.askDue = true) (start : Timer) : (r.met start).RecallHeld :=
  recallHeld_met h.bounded (h.due hdue) (h.recovering.1 (h.due hdue)) (h.dueAttempts hdue) start

theorem RecallHeld.askCompleted (h : r.RecallHeld) (hdue : r.askDue = true) (start : Timer) :
    (r.askCompleted start).RecallHeld := { h.met hdue start with }

/-- A recall wait that has run out asks again (R83). -/
theorem RecallHeld.askAgain (h : r.RecallHeld) (hwait : r.recallWait ≠ .stopped) (hfew : r.attempts < 3) :
    { r with askDue := true, recallWait := .stopped }.RecallHeld := by
  have hstate := h.waiting hwait
  have hcovered : r.covered = 0 := by_contra fun hcov => hwait (h.dueWait (h.covered hcov))
  exact
    { h with
      due := fun _ => hstate
      dueWait := fun _ => rfl
      waiting := fun _ => hstate
      covered := fun _ => rfl
      dueAttempts := fun _ => Nat.le_of_lt_succ hfew
      asks := fun _ => by
        show IndexSet.subset r.need r.covered = false
        rw [hcovered, Bool.eq_false_iff]
        exact fun hsub => h.recovering.1 hstate (IndexSet.subset_zero_iff.1 hsub) }

/-! ### Recalls emptied and begun -/

theorem recallHeld_recalled (r : PeerRecord) : r.recalled.RecallHeld :=
  Resting.recallHeld ⟨nofun, rfl, rfl, rfl, rfl, rfl⟩

theorem recallHeld_beginRecall {need : IndexSet} (hneed : need ≠ 0) (hbounded : IndexSet.subset need r.bounded = true) :
    (r.beginRecall need).RecallHeld := Beginning.recallHeld ⟨rfl, hbounded, hneed, rfl, rfl, rfl⟩

/-- A record begun at a frame (R57, R58): its recall was empty and no index set was known. -/
theorem recallHeld_freshStart (h : r.covered = 0 ∧ r.attempts = 0 ∧ r.recallWait = .stopped ∧ r.published = none)
    (hello : Bool) : (r.freshStart hello).RecallHeld := by
  obtain ⟨hcovered, hattempts, hwait, hpublished⟩ := h
  unfold PeerRecord.freshStart
  split
  · exact Resting.recallHeld ⟨nofun, rfl, hcovered, rfl, hattempts, hwait⟩
  · split
    · exact Resting.recallHeld ⟨nofun, rfl, hcovered, rfl, hattempts, hwait⟩
    next hinterest =>
      refine Beginning.recallHeld ⟨rfl, ?_, hinterest, hcovered, hattempts, hwait⟩
      unfold PeerRecord.bounded
      simp only [hpublished]
      exact IndexSet.subset_refl _

theorem RecallHeld.atEpoch (h : r.RecallHeld) (f : Frame) : (r.atEpoch f).RecallHeld := by
  unfold PeerRecord.atEpoch
  split
  · exact h
  · exact recallHeld_freshStart ⟨rfl, rfl, rfl, rfl⟩ _

/-- A record that has been away returns with a recall begun, or with nothing to recall (R59). -/
theorem RecallHeld.returned (h : r.RecallHeld) (haway : r.isAway = true) : r.returned.RecallHeld := by
  have hrest := h.resting fun hstate => by simp [PeerRecord.isAway, hstate] at haway
  by_cases hbounded : r.bounded = 0
  · refine Resting.recallHeld ⟨?_, hbounded, rfl, ?_, rfl, hrest.recallWait⟩
    · simp [PeerRecord.returned, hbounded]
    · simp [PeerRecord.returned, hbounded]
  · refine Beginning.recallHeld ⟨?_, IndexSet.subset_refl _, hbounded, rfl, rfl, hrest.recallWait⟩
    exact if_neg hbounded

theorem RecallHeld.welcomed (h : r.RecallHeld) (f : Frame) (t : Timing) : (r.welcomed f t).RecallHeld := by
  cases haway : r.isAway with
  | true =>
    rw [PeerRecord.welcomed_away haway]
    exact { h.returned haway with }
  | false =>
    rw [PeerRecord.welcomed_here haway]
    exact { h with }

/-! ### Gaps -/

/-- A gap adds the bounded interest to the need (R60, R73). -/
theorem RecallHeld.gapTaken (h : r.RecallHeld) (next : Byte) : (r.gapTaken next).RecallHeld := by
  rw [PeerRecord.gapTaken_eq]
  have hwithin : IndexSet.subset (r.need ||| r.bounded) r.bounded = true :=
    IndexSet.or_subset h.bounded (IndexSet.subset_refl _)
  by_cases hneed : r.need = 0
  · have hrest := h.resting fun hstate => h.recovering.1 hstate hneed
    by_cases hall : r.need ||| r.bounded = 0
    · refine Resting.recallHeld ⟨?_, hall, hrest.covered, ?_, hrest.attempts, hrest.recallWait⟩
      · dsimp only
        rw [if_pos hall]
        exact hrest.state
      · simp [hrest.askDue, hall]
    · exact Beginning.recallHeld ⟨if_neg hall, hwithin, hall, hrest.covered, hrest.attempts, hrest.recallWait⟩
  · have hstate := h.recovering.2 hneed
    have hall : r.need ||| r.bounded ≠ 0 := IndexSet.ne_zero_of_subset (IndexSet.subset_left_or _ _) hneed
    simp only [hneed, hall, false_and, decide_false, Bool.or_false, if_false]
    exact
      { h with
        bounded := hwithin
        recovering := iff_of_true rfl hall
        due := fun _ => rfl
        waiting := fun _ => rfl
        begun := fun _ => rfl
        asks := fun hdue => Bool.eq_false_iff.2 fun hsub =>
          Bool.eq_false_iff.1 (h.asks hdue) (IndexSet.subset_trans (IndexSet.subset_left_or _ _) hsub) }

theorem RecallHeld.checked (h : r.RecallHeld) (carried next : Byte) : (r.checked carried next).RecallHeld := by
  unfold PeerRecord.checked
  split
  · exact { h with }
  · exact h.gapTaken next

theorem RecallHeld.sequenced (h : r.RecallHeld) (f : Frame) : (r.sequenced f).RecallHeld := by
  unfold PeerRecord.sequenced
  split
  · exact h.checked _ _
  · exact h.checked _ _
  · exact h

/-! ### Needs that shrink -/

/-- A record whose recall is that of `r`, but that its need has lost indexes, to the items of a frame or to a published
set that does not name them (R61, R63, R86). -/
structure ShedFrom (r y : PeerRecord) : Prop where
  state : y.state = r.state
  covered : y.covered = r.covered
  askDue : y.askDue = r.askDue
  attempts : y.attempts = r.attempts
  recallWait : y.recallWait = r.recallWait
  need : IndexSet.subset y.need r.need = true
  bounded : IndexSet.subset y.need y.bounded = true

theorem RecallHeld.shedFrom_informed (h : r.RecallHeld) (f : Frame) : ShedFrom r (r.informed f) := by
  have hsame : ShedFrom r r := ⟨rfl, rfl, rfl, rfl, rfl, IndexSet.subset_refl _, h.bounded⟩
  unfold PeerRecord.informed
  split
  next q p set _ =>
    refine ⟨rfl, rfl, rfl, rfl, rfl, ?_, ?_⟩
    · exact (IndexSet.subset_iff _ _).2 fun i hi => by
        rw [IndexSet.mem_and, Bool.and_eq_true] at hi
        exact hi.1
    · refine (IndexSet.subset_iff _ _).2 fun i hi => ?_
      rw [IndexSet.mem_and, Bool.and_eq_true] at hi
      have hbounded := PeerRecord.mem_bounded.1 ((IndexSet.subset_iff _ _).1 h.bounded i hi.1)
      refine PeerRecord.mem_bounded.2 ⟨hbounded.1, fun p' hp' => ?_⟩
      cases hp'
      exact hi.2
  · exact { hsame with }
  · exact hsame

theorem ShedFrom.shed (h : ShedFrom r y) (items : List Item) : ShedFrom r (PeerRecord.shed items y) := by
  have hless : IndexSet.subset (PeerRecord.shed items y).need y.need = true :=
    (IndexSet.subset_iff _ _).2 fun i hi => ((IndexSet.mem_foldl_erase items y.need i).1 hi).1
  exact { h with need := IndexSet.subset_trans hless h.need, bounded := IndexSet.subset_trans hless h.bounded }

/-- Recovery and the test of R80 restore the laws after the need has shrunk: an empty need completes the recovery, and a
need that others' asks cover whole is met. -/
theorem RecallHeld.tested_of_shedFrom (h : r.RecallHeld) (hy : ShedFrom r y) (start : Timer) :
    (y.recovered.tested false start r.need).RecallHeld := by
  unfold PeerRecord.recovered
  split
  next hdone =>
    have hnot : ¬(IndexSet.diff r.need y.recalled.need ≠ 0 ∧
        (y.recalled.askDue && IndexSet.subset y.recalled.need y.recalled.covered && !false) = true) := nofun
    unfold PeerRecord.tested
    rw [if_neg hnot]
    exact recallHeld_recalled y
  next hopen =>
    have hrecovering : y.state = .recovering ↔ y.need ≠ 0 :=
      ⟨fun hstate hneed => hopen ⟨hstate, hneed⟩, fun hneed =>
        hy.state.trans (h.recovering.2 (IndexSet.ne_zero_of_subset hy.need hneed))⟩
    have hdue : y.askDue = true → y.state = .recovering := fun hdue =>
      hy.state.trans (h.due (hy.askDue.symm.trans hdue))
    have hdueAttempts : y.askDue = true → y.attempts ≤ 2 := fun hdue =>
      hy.attempts.trans_le (h.dueAttempts (hy.askDue.symm.trans hdue))
    unfold PeerRecord.tested
    split
    next hmet =>
      obtain ⟨_, hcond⟩ := hmet
      have hyd : y.askDue = true := by
        rw [Bool.and_assoc, Bool.and_eq_true] at hcond
        exact hcond.1
      exact recallHeld_met hy.bounded (hdue hyd) (hrecovering.1 (hdue hyd)) (hdueAttempts hyd) start
    next hnot =>
      refine ⟨hy.bounded, hrecovering, hdue, fun hyd => ?_, fun hwait => ?_, fun hcov => ?_, ?_, hdueAttempts,
        fun hatt => ?_, fun hyd => ?_⟩
      · rw [hy.recallWait]
        exact h.dueWait (hy.askDue.symm.trans hyd)
      · rw [hy.recallWait] at hwait
        exact hy.state.trans (h.waiting hwait)
      · rw [hy.covered] at hcov
        exact hy.askDue.trans (h.covered hcov)
      · rw [hy.attempts]
        exact h.attempts
      · rw [hy.attempts] at hatt
        exact hy.state.trans (h.begun hatt)
      · by_cases hdiff : IndexSet.diff r.need y.need = 0
        · have hback : IndexSet.subset r.need y.need = true := beq_iff_eq.2 hdiff
          rw [IndexSet.eq_of_subset hy.need hback, hy.covered]
          exact h.asks (hy.askDue.symm.trans hyd)
        · rw [Bool.eq_false_iff]
          exact fun hsub => hnot ⟨hdiff, by simp [hyd, hsub]⟩

/-- The classification of a frame keeps the laws of its sender's record while no own ASK is in flight. -/
theorem RecallHeld.classified (h : r.RecallHeld) (f : Frame) (t : Timing) (start : Timer) :
    (r.classified f t false start).RecallHeld :=
  have hsequenced := (h.welcomed f t).sequenced f
  hsequenced.tested_of_shedFrom ((hsequenced.shedFrom_informed f).shed f.body.items) start

/-! ### The silence timer -/

theorem silenceFits_of_heard {left : Nat} (hsilence : r.silence = .running .silence left) (hhere : r.isAway = false) :
    r.silenceFits = true := by
  unfold PeerRecord.silenceFits
  rw [hsilence]
  rcases PeerRecord.isAway_eq_false hhere with h | h <;> rw [h] <;> rfl

/-- The timer of a record that is not LOST fits it in LIVE and RECOVERING too. -/
theorem silenceFits_of_here (h : r.silenceFits = true) (hlost : r.state ≠ .lost) (hsilence : x.silence = r.silence)
    (hx : x.isAway = false) : x.silenceFits = true := by
  have hstate := PeerRecord.isAway_eq_false hx
  unfold PeerRecord.silenceFits at h ⊢
  rw [hsilence]
  split at h
  next hs => exact absurd (eq_of_beq h) hlost
  next => rcases hstate with hs | hs <;> rw [hs] <;> rfl
  next => rcases hstate with hs | hs <;> rw [hs] <;> rfl

theorem silenceFits_congr (hsilence : x.silence = r.silence) (hstate : x.state = r.state) :
    x.silenceFits = r.silenceFits := by
  unfold PeerRecord.silenceFits
  rw [hsilence, hstate]

theorem silenceFits_tick (r : PeerRecord) (wait : Timer) :
    { r with silence := r.silence.tick, recallWait := wait }.silenceFits = r.silenceFits := by
  unfold PeerRecord.silenceFits
  cases r.silence with
  | stopped => rfl
  | running limit left => cases limit <;> rfl

end PeerRecord

end Sys2Proof.Machine
end

section
/-! PROOFS. The laws of the Peer Table, in the one form that every event of the peer unit keeps: each law names its record
by the lookup of its station. -/

namespace Sys2Proof.Machine

open Sys2Proof

/-! ### The view -/

/-- What the invariant of the Peer Table speaks of: the peer unit, the ASK want, the own number, the windows, and whether
the station is in CONFIGURING. -/
structure PeerView where
  peers : PeerUnit
  want : Bool
  station : Option Station
  windows : Vector Window 8
  configuring : Bool

def State.peerView (s : State) : PeerView where
  peers := s.peers
  want := s.arbiter.wants.ask
  station := s.control.station
  windows := s.notices.windows
  configuring := decide (s.control.state = .configuring)

/-- The ASK want that records and marker make (R74). -/
def PeerUnit.wantsAsk (u : PeerUnit) : Bool := u.records.any PeerRecord.askDue && u.asking.isNone

/-- A record of a station on the line, not the own one, with the interest that the windows give (R49, R51). -/
structure PeerRecord.Known (windows : Vector Window 8) (own : Option Station) (r : PeerRecord) : Prop where
  names : namesStation r.station = true
  other : own ≠ some r.station
  interest : r.interest = interestSet windows own r.station

theorem PeerRecord.Known.congr {windows : Vector Window 8} {own : Option Station} {r x : PeerRecord}
    (h : r.Known windows own) (hstation : x.station = r.station) (hinterest : x.interest = r.interest) :
    x.Known windows own := by
  refine ⟨?_, ?_, ?_⟩
  · rw [hstation]; exact h.names
  · rw [hstation]; exact h.other
  · rw [hstation, hinterest]; exact h.interest

/-- The form of the Peer Table and of the loss list, and the laws of the records at the stations of `P`. -/
structure PeerUnit.TableHeld (windows : Vector Window 8) (own : Option Station) (P : Station → Prop) (u : PeerUnit) :
    Prop where
  length : u.records.length ≤ 32
  sorted : tableSorted (fun r : PeerRecord => r.station.toNat) u.records
  known : ∀ m r, u.find? m = some r → r.Known windows own
  recalls : ∀ m r, P m → u.find? m = some r → r.RecallHeld
  silence : ∀ m r, P m → u.find? m = some r → r.silenceFits = true
  nodup : u.lossList.Nodup
  lost : ∀ m, P m → (m ∈ u.lossList ↔ u.isLost m = true)

/-- An ASK in flight asks for something, and the record of an owned one is due (R72). -/
def PeerUnit.MarkerHeld (u : PeerUnit) : Prop :=
  ∀ a ∈ u.asking, a.asked ≠ 0 ∧ (a.owned = true → ∃ r, u.find? a.target = some r ∧ r.askDue = true)

/-- The whole invariant. -/
structure PeerView.Held (v : PeerView) : Prop where
  table : v.peers.TableHeld v.windows v.station (fun _ => True)
  marker : v.peers.MarkerHeld
  want : v.want = v.peers.wantsAsk
  empty : v.configuring = true → v.peers.records = []

theorem PeerUnit.isLost_iff {u : PeerUnit} {n : Station} :
    u.isLost n = true ↔ ∃ r, u.find? n = some r ∧ r.state = .lost := by
  unfold PeerUnit.isLost
  cases u.find? n with
  | none => simp
  | some r => simp

theorem PeerUnit.find?_of_mem {u : PeerUnit} (h : tableSorted (fun r : PeerRecord => r.station.toNat) u.records)
    {r : PeerRecord} (hr : r ∈ u.records) : u.find? r.station = some r := tableFind_of_mem h hr

theorem State.peerView_held_iff (s : State) : s.peerView.Held ↔ s.peersWf := by
  constructor
  · intro h
    have hfind : ∀ r ∈ s.peers.records, s.peers.find? r.station = some r :=
      fun r hr => PeerUnit.find?_of_mem h.table.sorted hr
    refine ⟨h.table.length, h.table.sorted, fun r hr => ?_, fun a ha => ?_, h.table.nodup,
      fun n hn => (h.table.lost n trivial).1 hn, fun r hr hlost => ?_, h.want, fun hc => h.empty (decide_eq_true hc)⟩
    · have hknown := h.table.known _ _ (hfind r hr)
      have hrecall := h.table.recalls _ _ trivial (hfind r hr)
      exact ⟨⟨hrecall.bounded, hrecall.recovering, hrecall.due, hrecall.dueWait, hrecall.waiting, hrecall.covered,
        hrecall.attempts, hrecall.dueAttempts, hrecall.begun, h.table.silence _ _ trivial (hfind r hr)⟩,
        hknown.names, hknown.other, hknown.interest, hrecall.asks⟩
    · obtain ⟨hasked, howned⟩ := h.marker a ha
      refine ⟨hasked, fun ho => ?_⟩
      obtain ⟨r, hr, hdue⟩ := howned ho
      exact ⟨r, (tableFind_mem hr).1, PeerUnit.find?_station hr, hdue⟩
    · exact (h.table.lost r.station trivial).2 (PeerUnit.isLost_iff.2 ⟨r, hfind r hr, hlost⟩)
  · rintro ⟨hlength, hsorted, hrecords, hmarker, hnodup, hlisted, hlost, hwant, hempty⟩
    have hmem : ∀ {m r}, s.peers.find? m = some r → r ∈ s.peers.records := fun hr => (tableFind_mem hr).1
    refine ⟨⟨hlength, hsorted, fun m r hr => ?_, fun m r _ hr => ?_, fun m r _ hr => ?_, hnodup, fun m _ => ?_⟩,
      fun a ha => ?_, hwant, fun hc => hempty (of_decide_eq_true hc)⟩
    · obtain ⟨_, hnames, hother, hinterest, _⟩ := hrecords r (hmem hr)
      exact ⟨hnames, hother, hinterest⟩
    · obtain ⟨⟨hbounded, hrecovering, hdue, hdueWait, hwaiting, hcovered, hattempts, hdueAttempts, hbegun, _⟩, _, _, _,
        hasks⟩ := hrecords r (hmem hr)
      exact ⟨hbounded, hrecovering, hdue, hdueWait, hwaiting, hcovered, hattempts, hdueAttempts, hbegun, hasks⟩
    · obtain ⟨⟨_, _, _, _, _, _, _, _, _, hsilence⟩, _⟩ := hrecords r (hmem hr)
      exact hsilence
    · refine ⟨hlisted m, fun hm => ?_⟩
      obtain ⟨r, hr, hstate⟩ := PeerUnit.isLost_iff.1 hm
      obtain rfl := PeerUnit.find?_station hr
      exact hlost r (hmem hr) hstate
    · obtain ⟨hasked, howned⟩ := hmarker a ha
      refine ⟨hasked, fun ho => ?_⟩
      obtain ⟨r, hr, htarget, hdue⟩ := howned ho
      exact ⟨r, htarget ▸ PeerUnit.find?_of_mem hsorted hr, hdue⟩

/-! ### Tables -/

namespace PeerUnit.TableHeld

variable {windows : Vector Window 8} {own : Option Station} {P : Station → Prop} {u v : PeerUnit} {n : Station}
  {r x : PeerRecord}

theorem mono (h : u.TableHeld windows own (fun _ => True)) : u.TableHeld windows own P :=
  { h with
    recalls := fun m r _ => h.recalls m r trivial
    silence := fun m r _ => h.silence m r trivial
    lost := fun m _ => h.lost m trivial }

theorem nil {u : PeerUnit} (hrecords : u.records = []) (hlist : u.lossList = []) : u.TableHeld windows own P := by
  have hnone : ∀ m, u.find? m = none := fun m => by
    unfold PeerUnit.find?
    rw [hrecords]
    rfl
  refine ⟨by simp [hrecords], by simp [hrecords], fun m r hr => ?_, fun m r _ hr => ?_, fun m r _ hr => ?_,
    by simp [hlist], fun m _ => ?_⟩
  · rw [hnone] at hr; cases hr
  · rw [hnone] at hr; cases hr
  · rw [hnone] at hr; cases hr
  · simp [hlist, PeerUnit.isLost, hnone]

/-- A station that is not LOST is not on the loss list. -/
theorem unlisted_eq (h : u.TableHeld windows own (fun _ => True)) (hr : u.find? n = some r) (hlost : r.state ≠ .lost) :
    u.unlisted n = u := by
  have hnot : n ∉ u.lossList := fun hn => by
    obtain ⟨x, hx, hstate⟩ := PeerUnit.isLost_iff.1 ((h.lost n trivial).1 hn)
    cases hr.symm.trans hx
    exact hlost hstate
  have hfilter : u.lossList.filter (fun m => decide (m ≠ n)) = u.lossList :=
    List.filter_eq_self.2 fun m hm => decide_eq_true fun hmn => hnot (hmn ▸ hm)
  unfold PeerUnit.unlisted
  rw [hfilter]

/-- One record reworked into one that keeps the laws and is not LOST, while its station leaves the loss list. -/
theorem reworked (h : u.TableHeld windows own (fun m => m ≠ n)) (k : (u.unlisted n).Reworked n x v)
    (hknown : x.Known windows own) (hrecall : x.RecallHeld) (hsilence : x.silenceFits = true) (hlost : x.state ≠ .lost) :
    v.TableHeld windows own (fun _ => True) := by
  have hself : ∀ {y}, v.find? n = some y → x = y := fun hy => Option.some.inj (k.self.symm.trans hy)
  have hother : ∀ {m}, m ≠ n → v.find? m = u.find? m := fun hm => k.others _ hm
  have hkeys : v.records.map (fun r => r.station.toNat) = u.records.map (fun r => r.station.toNat) := by
    have hnumbers := congrArg (List.map BitVec.toNat) k.stations
    rw [List.map_map, List.map_map] at hnumbers
    exact hnumbers
  have hlist : ∀ m, m ∈ v.lossList ↔ m ∈ u.lossList ∧ m ≠ n := by
    intro m
    rw [k.lossList]
    unfold PeerUnit.unlisted
    rw [List.mem_filter, decide_eq_true_iff]
  refine ⟨?_, ?_, fun m y hy => ?_, fun m y _ hy => ?_, fun m y _ hy => ?_, ?_, fun m _ => ?_⟩
  · have hlength := congrArg List.length hkeys
    rw [List.length_map, List.length_map] at hlength
    rw [hlength]
    exact h.length
  · have hsorted := List.pairwise_map.2 h.sorted
    rw [← hkeys] at hsorted
    exact List.pairwise_map.1 hsorted
  · by_cases hm : m = n
    · exact hself (hm ▸ hy) ▸ hknown
    · exact h.known m y ((hother hm).symm.trans hy)
  · by_cases hm : m = n
    · exact hself (hm ▸ hy) ▸ hrecall
    · exact h.recalls m y hm ((hother hm).symm.trans hy)
  · by_cases hm : m = n
    · exact hself (hm ▸ hy) ▸ hsilence
    · exact h.silence m y hm ((hother hm).symm.trans hy)
  · rw [k.lossList]
    exact h.nodup.filter _
  · rw [hlist, PeerUnit.isLost_iff]
    by_cases hm : m = n
    · refine iff_of_false (fun hmem => hmem.2 hm) fun ⟨y, hy, hstate⟩ => hlost ?_
      rw [hself (hm ▸ hy)]
      exact hstate
    · rw [and_iff_left hm, h.lost m hm, PeerUnit.isLost_iff, hother hm]

/-- All records changed, none into or out of LOST. -/
theorem mapRecords (h : u.TableHeld windows own (fun _ => True)) {g : PeerRecord → PeerRecord}
    (hrecords : v.records = u.records.map g) (hlist : v.lossList = u.lossList)
    (hstation : ∀ r, (g r).station = r.station) (hinterest : ∀ r, (g r).interest = r.interest)
    (hrecall : ∀ r, r.RecallHeld → (g r).RecallHeld)
    (hsilence : ∀ r, r.RecallHeld → r.silenceFits = true → (g r).silenceFits = true)
    (hlost : ∀ r, (g r).state = .lost ↔ r.state = .lost) : v.TableHeld windows own (fun _ => True) := by
  have hfind : ∀ m, v.find? m = (u.find? m).map g := PeerUnit.find?_map hrecords hstation
  refine ⟨?_, ?_, fun m y hy => ?_, fun m y _ hy => ?_, fun m y _ hy => ?_, ?_, fun m _ => ?_⟩
  · rw [hrecords, List.length_map]; exact h.length
  · rw [hrecords]; exact map_sorted (fun r => by rw [hstation]) h.sorted
  · rw [hfind] at hy
    obtain ⟨r, hr, rfl⟩ := Option.map_eq_some_iff.1 hy
    exact (h.known m r hr).congr (hstation r) (hinterest r)
  · rw [hfind] at hy
    obtain ⟨r, hr, rfl⟩ := Option.map_eq_some_iff.1 hy
    exact hrecall r (h.recalls m r trivial hr)
  · rw [hfind] at hy
    obtain ⟨r, hr, rfl⟩ := Option.map_eq_some_iff.1 hy
    exact hsilence r (h.recalls m r trivial hr) (h.silence m r trivial hr)
  · rw [hlist]; exact h.nodup
  · rw [hlist, h.lost m trivial, PeerUnit.isLost_iff, PeerUnit.isLost_iff, hfind]
    constructor
    · rintro ⟨r, hr, hstate⟩
      exact ⟨g r, by rw [hr]; rfl, (hlost r).2 hstate⟩
    · rintro ⟨y, hy, hstate⟩
      obtain ⟨r, hr, rfl⟩ := Option.map_eq_some_iff.1 hy
      exact ⟨r, hr, (hlost r).1 hstate⟩

/-- A SILENT record becomes LOST, at the tail of the loss list (R53, R68). -/
theorem becomeLost (h : u.TableHeld windows own (fun _ => True)) (hr : u.find? n = some r) (hsilent : r.state = .silent)
    (hrecords : v.records = u.records.map (fun x => if x.station = n then x.lostNow else x))
    (hlist : v.lossList = u.lossList ++ [n]) : v.TableHeld windows own (fun _ => True) := by
  have hfind : ∀ m, v.find? m = (u.find? m).map (fun x => if x.station = n then x.lostNow else x) :=
    PeerUnit.find?_map hrecords (fun r => by split <;> rfl)
  have hself : v.find? n = some r.lostNow := by
    rw [hfind, hr, Option.map_some, if_pos (PeerUnit.find?_station hr)]
  have hother : ∀ m, m ≠ n → v.find? m = u.find? m := by
    intro m hm
    rw [hfind]
    cases hx : u.find? m with
    | none => rfl
    | some x => rw [Option.map_some, if_neg (by rw [PeerUnit.find?_station hx]; exact hm)]
  have hrest := (h.recalls n r trivial hr).resting (by rw [hsilent]; exact nofun)
  have hnot : n ∉ u.lossList := fun hn => by
    obtain ⟨x, hx, hstate⟩ := PeerUnit.isLost_iff.1 ((h.lost n trivial).1 hn)
    cases hr.symm.trans hx
    rw [hsilent] at hstate
    cases hstate
  refine ⟨?_, ?_, fun m y hy => ?_, fun m y _ hy => ?_, fun m y _ hy => ?_, ?_, fun m _ => ?_⟩
  · rw [hrecords, List.length_map]; exact h.length
  · rw [hrecords]; exact map_sorted (fun r => by split <;> rfl) h.sorted
  · by_cases hm : m = n
    · subst hm
      cases hself.symm.trans hy
      exact (h.known m r hr).congr rfl rfl
    · exact h.known m y ((hother m hm).symm.trans hy)
  · by_cases hm : m = n
    · subst hm
      cases hself.symm.trans hy
      exact PeerRecord.Resting.recallHeld { hrest with state := nofun }
    · exact h.recalls m y trivial ((hother m hm).symm.trans hy)
  · by_cases hm : m = n
    · subst hm
      cases hself.symm.trans hy
      rfl
    · exact h.silence m y trivial ((hother m hm).symm.trans hy)
  · rw [hlist]
    refine List.nodup_append.2 ⟨h.nodup, List.nodup_singleton n, fun a ha b hb hab => hnot ?_⟩
    rw [← List.mem_singleton.1 hb, ← hab]
    exact ha
  · rw [hlist, List.mem_append, List.mem_singleton, h.lost m trivial, PeerUnit.isLost_iff, PeerUnit.isLost_iff]
    by_cases hm : m = n
    · subst hm
      exact iff_of_true (.inr rfl) ⟨_, hself, rfl⟩
    · rw [or_iff_left hm, hother m hm]

/-- A record that gives up its place (R55). -/
theorem dropRecord (h : u.TableHeld windows own (fun _ => True)) (n : Station) :
    (u.dropRecord n).TableHeld windows own (fun _ => True) := by
  have hself : (u.dropRecord n).find? n = none :=
    tableFind_none.2 fun r hr => (mem_tableErase.1 hr).2
  have hfound : ∀ {m y}, (u.dropRecord n).find? m = some y → u.find? m = some y := by
    intro m y hy
    have hmem := (mem_tableErase.1 (tableFind_mem hy).1).1
    have hstation := PeerUnit.find?_station hy
    rw [← hstation]
    exact PeerUnit.find?_of_mem h.sorted hmem
  have hkept : ∀ {m y}, m ≠ n → u.find? m = some y → (u.dropRecord n).find? m = some y := by
    intro m y hm hy
    have hstation := PeerUnit.find?_station hy
    have hmem : y ∈ (u.dropRecord n).records := mem_tableErase.2 ⟨(tableFind_mem hy).1, fun hkey =>
      hm (hstation.symm.trans (BitVec.eq_of_toNat_eq hkey))⟩
    rw [← hstation]
    exact PeerUnit.find?_of_mem (tableErase_sorted h.sorted) hmem
  refine ⟨(List.length_filter_le _ _).trans h.length, tableErase_sorted h.sorted,
    fun m y hy => h.known m y (hfound hy), fun m y _ hy => h.recalls m y trivial (hfound hy),
    fun m y _ hy => h.silence m y trivial (hfound hy), h.nodup.filter _, fun m _ => ?_⟩
  have hlist : m ∈ (u.dropRecord n).lossList ↔ m ∈ u.lossList ∧ m ≠ n := by
    rw [PeerUnit.dropRecord_eq, List.mem_filter, decide_eq_true_iff]
  rw [hlist, h.lost m trivial, PeerUnit.isLost_iff, PeerUnit.isLost_iff]
  constructor
  · rintro ⟨⟨y, hy, hstate⟩, hm⟩
    exact ⟨y, hkept hm hy, hstate⟩
  · rintro ⟨y, hy, hstate⟩
    refine ⟨⟨y, hfound hy, hstate⟩, fun hm => ?_⟩
    rw [hm, hself] at hy
    cases hy

/-- A record put into a table with room for it; the laws of the other records stay (R57). -/
theorem insertRecord (h : u.TableHeld windows own (fun _ => True)) (hroom : u.records.length < 32)
    (hx : x.station = n) (hknown : x.Known windows own) :
    PeerUnit.TableHeld windows own (fun m => m ≠ n)
      { u with records := tableInsert (fun r => r.station.toNat) x u.records } := by
  have hself : PeerUnit.find? { u with records := tableInsert (fun r => r.station.toNat) x u.records } n = some x := by
    have hfound := tableFind_tableInsert_self (key := fun r : PeerRecord => r.station.toNat) x u.records
    rw [hx] at hfound
    exact hfound
  have hother : ∀ m, m ≠ n →
      PeerUnit.find? { u with records := tableInsert (fun r => r.station.toNat) x u.records } m = u.find? m :=
    fun m hm => tableFind_tableInsert_other (key := fun r : PeerRecord => r.station.toNat)
      (fun hkey => hm ((BitVec.eq_of_toNat_eq hkey).trans hx)) _
  refine ⟨(tableInsert_length_le x u.records).trans hroom, tableInsert_sorted h.sorted, fun m y hy => ?_,
    fun m y hm hy => h.recalls m y trivial ((hother m hm).symm.trans hy),
    fun m y hm hy => h.silence m y trivial ((hother m hm).symm.trans hy), h.nodup, fun m hm => ?_⟩
  · by_cases hm : m = n
    · subst hm
      cases hself.symm.trans hy
      exact hknown
    · exact h.known m y ((hother m hm).symm.trans hy)
  · rw [PeerUnit.isLost_iff, hother m hm, ← PeerUnit.isLost_iff]
    exact h.lost m trivial

/-- The record to reclaim is in the table (R55). -/
theorem exists_reclaimed (h : u.TableHeld windows own (fun _ => True)) (hn : u.reclaimStation? = some n) :
    ∃ r ∈ u.records, r.station = n := by
  unfold PeerUnit.reclaimStation? at hn
  split at hn
  next m l hlist =>
    cases hn
    obtain ⟨r, hr, _⟩ := PeerUnit.isLost_iff.1 ((h.lost n trivial).1 (by rw [hlist]; exact List.mem_cons_self))
    exact ⟨r, (tableFind_mem hr).1, PeerUnit.find?_station hr⟩
  next =>
    obtain ⟨r, hr, rfl⟩ := Option.map_eq_some_iff.1 hn
    exact ⟨r, List.mem_of_find?_eq_some hr, rfl⟩

end PeerUnit.TableHeld

/-! ### The marker -/

namespace PeerUnit.MarkerHeld

variable {u v : PeerUnit} {n : Station} {r x : PeerRecord}

theorem of_none (h : u.asking = none) : u.MarkerHeld := by
  intro a ha
  rw [h] at ha
  cases ha

/-- The marker stays as it was, and the reworked record stays due if it was. -/
theorem reworked (h : u.MarkerHeld) (hr : u.find? n = some r) (k : u.Reworked n x v) (hasking : v.asking = u.asking)
    (hdue : r.askDue = true → x.askDue = true) : v.MarkerHeld := by
  intro a ha
  rw [hasking] at ha
  obtain ⟨hasked, howned⟩ := h a ha
  refine ⟨hasked, fun ho => ?_⟩
  obtain ⟨y, hy, hyd⟩ := howned ho
  by_cases hn : a.target = n
  · rw [hn, hr] at hy
    cases hy
    exact ⟨x, hn ▸ k.self, hdue hyd⟩
  · exact ⟨y, (k.others _ hn).trans hy, hyd⟩

/-- The marker is disowned where the record that it names may be due no longer (R78). -/
theorem disowned (h : u.MarkerHeld) {Q : Station → Prop} [DecidablePred Q]
    (hasking : v.asking = u.asking.map (fun a => { a with owned := a.owned && decide (¬Q a.target) }))
    (hdue : ∀ m r, ¬Q m → u.find? m = some r → r.askDue = true → ∃ x, v.find? m = some x ∧ x.askDue = true) :
    v.MarkerHeld := by
  intro a ha
  rw [hasking] at ha
  obtain ⟨b, hb, rfl⟩ := Option.map_eq_some_iff.1 ha
  obtain ⟨hasked, howned⟩ := h b hb
  refine ⟨hasked, fun ho => ?_⟩
  obtain ⟨hown, hnot⟩ := Bool.and_eq_true_iff.1 ho
  obtain ⟨r, hr, hrd⟩ := howned hown
  exact hdue _ r (of_decide_eq_true hnot) hr hrd

/-- All records changed, and no due one is due no longer. -/
theorem mapRecords (h : u.MarkerHeld) {g : PeerRecord → PeerRecord} (hrecords : v.records = u.records.map g)
    (hasking : v.asking = u.asking) (hstation : ∀ r, (g r).station = r.station)
    (hdue : ∀ r, (g r).askDue = r.askDue) : v.MarkerHeld := by
  intro a ha
  rw [hasking] at ha
  obtain ⟨hasked, howned⟩ := h a ha
  refine ⟨hasked, fun ho => ?_⟩
  obtain ⟨r, hr, hrd⟩ := howned ho
  exact ⟨g r, by rw [PeerUnit.find?_map hrecords hstation, hr]; rfl, (hdue r).trans hrd⟩

end PeerUnit.MarkerHeld

theorem PeerUnit.wantsAsk_map {u v : PeerUnit} {g : PeerRecord → PeerRecord} (hrecords : v.records = u.records.map g)
    (hasking : v.asking = u.asking) (hdue : ∀ r, (g r).askDue = r.askDue) : v.wantsAsk = u.wantsAsk := by
  unfold PeerUnit.wantsAsk
  rw [hrecords, hasking, List.any_map]
  congr 2
  funext r
  exact hdue r

end Sys2Proof.Machine
end

section
/-! PROOFS. The events of the peer unit keep the laws of the Peer Table: the classification of a frame, merges, expiries,
forced recall, the join recall and the outcomes of an own ASK. -/

namespace Sys2Proof.Machine

open Sys2Proof

/-! ### The windows stay -/

@[simp] theorem State.offer_windows (s : State) (b : NoticeBody) : (s.offer b).notices.windows = s.notices.windows :=
  NoticeUnit.offer_windows _ _

theorem foldl_offer_windows {α : Type} (g : α → NoticeRecord) (l : List α) (u : NoticeUnit) :
    (l.foldl (fun u a => u.offer (g a)) u).windows = u.windows := by
  induction l generalizing u with
  | nil => rfl
  | cons a l ih => exact (ih _).trans (NoticeUnit.offer_windows _ _)

theorem State.takeItem_windows (s : State) (n : Station) (interest : IndexSet) (c : Carrier) (i : Item) :
    (s.takeItem n interest c i).notices.windows = s.notices.windows := by
  have hcreate : ∀ k : Key, (s.createEntry k i).notices.windows = s.notices.windows := by
    intro k
    unfold State.createEntry
    split
    · rw [State.offer_windows]; rfl
    · split
      · rw [State.offer_windows]; rfl
      · rw [State.offer_windows]; rfl
  have happly : ∀ (k : Key) (clash : Bool), (s.applyItem k i clash).notices.windows = s.notices.windows := by
    intro k clash
    unfold State.applyItem
    cases clash
    · exact State.offer_windows _ _
    · exact (State.offer_windows _ _).trans (State.offer_windows _ _)
  unfold State.takeItem
  dsimp only
  split
  · split
    · exact hcreate _
    · rfl
  · split
    · rfl
    · exact State.offer_windows _ _
    · exact happly _ _

theorem State.itemsStep_windows (s : State) (f : Frame) : (s.itemsStep f).notices.windows = s.notices.windows := by
  unfold State.itemsStep
  induction f.body.items generalizing s with
  | nil => rfl
  | cons i l ih => exact (ih _).trans (State.takeItem_windows _ _ _ _ _)

theorem State.hear_windows (s : State) (f : Frame) : (s.hear f).notices.windows = s.notices.windows := by
  unfold State.hear
  dsimp only
  split
  · exact State.offer_windows _ _
  · rfl

theorem State.sequenceStep_windows (s : State) (f : Frame) : (s.sequenceStep f).notices.windows = s.notices.windows := by
  have hcheck : ∀ carried next : Byte,
      (s.checkSequence f.sender carried next).notices.windows = s.notices.windows := by
    intro carried next
    unfold State.checkSequence
    split
    · rfl
    · split
      · rfl
      · exact State.offer_windows _ _
  unfold State.sequenceStep
  split
  · exact hcheck _ _
  · exact hcheck _ _
  all_goals rfl

theorem State.contentsStep_windows (s : State) (f : Frame) : (s.contentsStep f).notices.windows = s.notices.windows := by
  unfold State.contentsStep State.takeBeacon
  split
  · split <;> rfl
  all_goals rfl

theorem State.recoveryStep_windows (s : State) (n : Station) :
    (s.recoveryStep n).notices.windows = s.notices.windows := by
  unfold State.recoveryStep
  split
  · split
    · exact State.offer_windows _ _
    · rfl
  · rfl

theorem State.testMet_windows (s : State) (n : Station) : (s.testMet n).notices.windows = s.notices.windows := by
  unfold State.testMet
  split
  · rfl
  · split <;> rfl

theorem State.classifyRecord_windows (s : State) (f : Frame) :
    (s.classifyRecord f).notices.windows = s.notices.windows := by
  have hrecovered :=
    ((((State.recoveryStep_windows ((((s.hear f).sequenceStep f).contentsStep f).itemsStep f) f.sender).trans
      (State.itemsStep_windows _ f)).trans (State.contentsStep_windows _ f)).trans
      (State.sequenceStep_windows _ f)).trans (State.hear_windows s f)
  unfold State.classifyRecord State.metStep
  dsimp only
  split
  · exact (State.testMet_windows _ _).trans hrecovered
  · exact hrecovered

theorem State.checkEpoch_windows (s : State) (r : PeerRecord) (f : Frame) :
    (s.checkEpoch r f).notices.windows = s.notices.windows := by
  unfold State.checkEpoch
  split
  · rfl
  · exact State.offer_windows _ _

theorem State.makeRoom_windows {s t : State} (h : s.makeRoom = some t) : t.notices.windows = s.notices.windows := by
  unfold State.makeRoom at h
  split at h
  · cases h
    rfl
  · obtain ⟨n, _, rfl⟩ := Option.map_eq_some_iff.1 h
    rfl

theorem State.classify_windows (s : State) (f : Frame) : (s.classify f).notices.windows = s.notices.windows := by
  unfold State.classify
  split
  · exact (State.classifyRecord_windows _ f).trans (State.checkEpoch_windows _ _ f)
  · split
    next t hroom =>
      have hcreated : (t.createRecord f).notices.windows = t.notices.windows := State.offer_windows _ _
      exact (State.classifyRecord_windows _ f).trans (hcreated.trans (State.makeRoom_windows hroom))
    next => exact State.offer_windows _ _

/-! ### What an event of the peer unit does to the view -/

theorem PeerSide.control_station {s t : State} (h : PeerSide s t) : t.control.station = s.control.station :=
  (congrArg Control.station h.control :)

theorem State.peerView_of_peerSide {s t : State} (h : PeerSide s t) (hw : t.notices.windows = s.notices.windows) :
    t.peerView = { s.peerView with peers := t.peers, want := t.arbiter.wants.ask } := by
  unfold State.peerView
  rw [hw, h.control_station, h.control_state]

theorem PeerView.Held.congr {v w : PeerView} (h : v.Held) (hw : w = v) : w.Held := hw ▸ h

theorem PeerView.Held.committed {s : State} (h : s.peerView.Held) {n : Station} {r : PeerRecord}
    (hr : s.peers.find? n = some r) : s.control.state ≠ .configuring := by
  intro hc
  have hmem := (tableFind_mem hr).1
  have hnil : s.peers.records = [] := h.empty (decide_eq_true hc)
  rw [hnil] at hmem
  cases hmem

namespace State

variable {s t : State} {n : Station} {r x : PeerRecord}

/-- An event of the peer unit after which table, marker and want are in order. -/
theorem held_of_peerSide (hside : PeerSide s t) (hw : t.notices.windows = s.notices.windows)
    (htable : t.peers.TableHeld s.notices.windows s.control.station (fun _ => True)) (hmarker : t.peers.MarkerHeld)
    (hwant : t.arbiter.wants.ask = t.peers.wantsAsk)
    (hempty : s.control.state = .configuring → t.peers.records = []) : t.peerView.Held := by
  rw [State.peerView_of_peerSide hside hw]
  exact ⟨htable, hmarker, hwant, fun hc => hempty (of_decide_eq_true hc)⟩

/-- A record that is not LOST reworked into one that keeps the laws and is not LOST. -/
theorem tableHeld_reworked (h : s.peerView.Held) (hr : s.peers.find? n = some r) (hlost : r.state ≠ .lost)
    {v : PeerUnit} (k : s.peers.Reworked n x v) (hinterest : x.interest = r.interest) (hrecall : x.RecallHeld)
    (hsilence : x.silenceFits = true) (hx : x.state ≠ .lost) :
    v.TableHeld s.notices.windows s.control.station (fun _ => True) := by
  have hunlisted : s.peers.unlisted n = s.peers := h.table.unlisted_eq hr hlost
  have hstation : x.station = r.station := by
    rw [PeerUnit.find?_station k.self, PeerUnit.find?_station hr]
  exact h.table.mono.reworked (n := n) (hunlisted.symm ▸ k) ((h.table.known n r hr).congr hstation hinterest) hrecall
    hsilence hx

/-! ### Expiries and forced recall -/

theorem held_recallWaitExpires (h : s.peerView.Held) (hr : s.peers.find? n = some r) (hdue : r.recallWait.isDue = true) :
    (s.recallWaitExpires r).peerView.Held := by
  obtain rfl := PeerUnit.find?_station hr
  have hrecall := h.table.recalls _ r trivial hr
  have hfits := h.table.silence _ r trivial hr
  have hwait : r.recallWait ≠ .stopped := by
    rw [(Timer.isDue_iff _).1 hdue]
    exact nofun
  have hstate := hrecall.waiting hwait
  have hlost : r.state ≠ .lost := by
    rw [hstate]
    exact nofun
  have hnotdue : r.askDue = true → r.recalled.askDue = true := fun hd => absurd (hrecall.dueWait hd) hwait
  have hself := PeerUnit.Reworked.refl hr
  unfold State.recallWaitExpires
  split
  next hfew =>
    have k := hself.mapPeer (f := fun r => { r with askDue := true, recallWait := .stopped }) (fun _ => rfl)
    exact held_of_peerSide ((PeerSide.mapPeer s _ _).trans (.judgeAsk _)) rfl
      (tableHeld_reworked h hr hlost k rfl (hrecall.askAgain hwait hfew) hfits hlost)
      (h.marker.reworked hr k rfl fun _ => rfl) rfl fun hc => absurd hc (h.committed hr)
  next hmany =>
    have k := hself.mapPeer (f := PeerRecord.recalled) (fun _ => rfl)
    exact held_of_peerSide ((((PeerSide.setMirrored s _).trans (.mapPeer _ _ _)).trans (.offer _ _)).trans (.judgeAsk _))
      (State.offer_windows _ _)
      (tableHeld_reworked h hr hlost k rfl (PeerRecord.recallHeld_recalled r)
        (PeerRecord.silenceFits_of_here hfits hlost rfl rfl) nofun)
      (h.marker.reworked hr k rfl hnotdue) rfl fun hc => absurd hc (h.committed hr)

theorem held_forceRecall (h : s.peerView.Held) (hr : s.peers.find? n = some r) (hlost : r.state ≠ .lost) :
    (s.forceRecall r).peerView.Held := by
  obtain rfl := PeerUnit.find?_station hr
  unfold State.forceRecall
  split
  · exact h
  next hbounded =>
    have k := (PeerUnit.Reworked.refl hr).mapPeer (f := fun r => r.beginRecall r.bounded) (fun _ => rfl)
    exact held_of_peerSide ((PeerSide.mapPeer s _ _).trans (.judgeAsk _)) rfl
      (tableHeld_reworked h hr hlost k rfl (PeerRecord.recallHeld_beginRecall hbounded (IndexSet.subset_refl _))
        (PeerRecord.silenceFits_of_here (h.table.silence _ r trivial hr) hlost rfl rfl) nofun)
      (h.marker.reworked hr k rfl fun _ => rfl) rfl fun hc => absurd hc (h.committed hr)

theorem held_fallSilent (h : s.peerView.Held) (hr : s.peers.find? r.station = some r) (hlost : r.state ≠ .lost)
    (hside : PeerSide s (s.fallSilent r)) : (s.fallSilent r).peerView.Held := by
  have k : s.peers.Reworked r.station (r.fallen s.control.timing r) (s.fallSilent r).peers :=
    ((PeerUnit.Reworked.refl hr).mapPeer (f := r.fallen s.control.timing) (fun _ => rfl)).disown r.station
  have hmarker : (s.fallSilent r).peers.MarkerHeld := by
    refine h.marker.disowned (Q := fun m => m = r.station) (State.disown_asking s r.station) fun m y hm hy hyd => ?_
    exact ⟨y, (k.others m hm).trans hy, hyd⟩
  exact held_of_peerSide hside (State.offer_windows _ _)
    (tableHeld_reworked h hr hlost k rfl (PeerRecord.Resting.recallHeld ⟨nofun, rfl, rfl, rfl, rfl, rfl⟩) rfl nofun)
    hmarker rfl fun hc => absurd hc (h.committed hr)

theorem held_becomeLost (h : s.peerView.Held) (hr : s.peers.find? r.station = some r) (hsilent : r.state = .silent)
    (hside : PeerSide s (s.becomeLost r)) : (s.becomeLost r).peerView.Held := by
  have hrecords : (s.becomeLost r).peers.records =
      s.peers.records.map (fun x => if x.station = r.station then x.lostNow else x) := rfl
  have hdue : ∀ x : PeerRecord, (if x.station = r.station then x.lostNow else x).askDue = x.askDue :=
    fun x => by split <;> rfl
  exact held_of_peerSide hside (State.offer_windows _ _) (h.table.becomeLost hr hsilent hrecords rfl)
    (h.marker.mapRecords hrecords rfl (fun x => by split <;> rfl) hdue)
    (h.want.trans (PeerUnit.wantsAsk_map hrecords rfl hdue).symm) fun hc => absurd hc (h.committed hr)

theorem held_silenceExpires (h : s.peerView.Held) (hr : s.peers.find? n = some r) :
    (s.silenceExpires r).peerView.Held := by
  obtain rfl := PeerUnit.find?_station hr
  have hside := PeerSide.silenceExpires s r
  cases hstate : r.state with
  | live =>
    rw [State.silenceExpires_here (.inl hstate)] at hside ⊢
    exact held_fallSilent h hr (by rw [hstate]; exact nofun) hside
  | recovering =>
    rw [State.silenceExpires_here (.inr hstate)] at hside ⊢
    exact held_fallSilent h hr (by rw [hstate]; exact nofun) hside
  | silent =>
    rw [State.silenceExpires_silent hstate] at hside ⊢
    exact held_becomeLost h hr hstate hside
  | lost =>
    unfold State.silenceExpires
    rw [hstate]
    exact h

/-! ### The marker's events -/

theorem held_startAsk {f : Frame} (h : s.peerView.Held) (hstart : s.startAsk = some (f, t)) : t.peerView.Held := by
  unfold State.startAsk at hstart
  split at hstart
  · cases hstart
  next r hr =>
    cases hstart
    have hmem : r ∈ s.peers.records := List.mem_of_find?_eq_some hr
    have hdue : r.askDue = true := List.find?_some hr
    have hfind : s.peers.find? r.station = some r := PeerUnit.find?_of_mem h.table.sorted hmem
    refine held_of_peerSide ((PeerSide.setPeers s _).trans (.judgeAsk _)) rfl { h.table with } ?_ rfl
      fun hc => absurd hc (h.committed hfind)
    intro a ha
    cases ha
    refine ⟨fun hnone => ?_, fun _ => ⟨r, hfind, hdue⟩⟩
    have hasks := (h.table.recalls _ r trivial hfind).asks hdue
    rw [IndexSet.subset, show IndexSet.diff r.need r.covered = 0 from hnone] at hasks
    cases hasks

theorem held_returnAsk (h : s.peerView.Held) : s.returnAsk.peerView.Held :=
  held_of_peerSide ((PeerSide.setPeers s _).trans (.judgeAsk _)) rfl { h.table with } (.of_none rfl) rfl
    fun hc => h.empty (decide_eq_true hc)

theorem held_completeAsk (h : s.peerView.Held) : s.completeAsk.peerView.Held := by
  unfold State.completeAsk
  split
  · exact h
  next a ha =>
    dsimp only
    cases howned : a.owned with
    | false => exact held_returnAsk h
    | true =>
      obtain ⟨_, hdue⟩ := h.marker a ha
      obtain ⟨r, hr, hrd⟩ := hdue howned
      have hrecall := h.table.recalls _ r trivial hr
      have hlost : r.state ≠ .lost := by
        rw [hrecall.due hrd]
        exact nofun
      have k := (PeerUnit.Reworked.refl hr).mapPeer (f := fun r => r.askCompleted s.recallStart) (fun _ => rfl)
      have htable := tableHeld_reworked h hr hlost k rfl (hrecall.askCompleted hrd s.recallStart)
        (h.table.silence _ r trivial hr) hlost
      exact held_of_peerSide (((PeerSide.mapPeer s _ _).trans (.setPeers _ _)).trans (.judgeAsk _)) rfl { htable with }
        (.of_none rfl) rfl fun hc => absurd hc (h.committed hr)

/-! ### All records at once -/

/-- A change of the records' timers that leaves stopped recall waits stopped. -/
theorem held_mapTimers (h : s.peerView.Held) {wait : Timer → Timer} (hwait : wait .stopped = .stopped)
    {silence : SilenceTimer → SilenceTimer}
    (hsilence : ∀ r : PeerRecord, { r with silence := silence r.silence, recallWait := wait r.recallWait }.silenceFits =
      r.silenceFits) :
    PeerView.Held { s.peerView with
      peers := { s.peers with
        records := s.peers.records.map
          (fun r => { r with silence := silence r.silence, recallWait := wait r.recallWait }) } } := by
  refine ⟨?_, ?_, ?_, fun hc => ?_⟩
  · refine h.table.mapRecords (g := fun r => { r with silence := silence r.silence, recallWait := wait r.recallWait })
      rfl rfl (fun _ => rfl) (fun _ => rfl) (fun r hr => ?_) (fun r _ hr => ?_) (fun _ => Iff.rfl)
    · exact { hr.mapWait hwait with }
    · rw [hsilence r]
      exact hr
  · exact h.marker.mapRecords rfl rfl (fun _ => rfl) (fun _ => rfl)
  · refine h.want.trans (Eq.symm ?_)
    exact PeerUnit.wantsAsk_map (u := s.peers)
      (g := fun r => { r with silence := silence r.silence, recallWait := wait r.recallWait }) rfl rfl fun _ => rfl
  · exact List.map_eq_nil_iff.2 (h.empty hc)

theorem held_mapWaits (h : s.peerView.Held) {g : Timer → Timer} (hg : g .stopped = .stopped) :
    (s.setPeers (s.peers.mapWaits g)).peerView.Held :=
  held_mapTimers h hg (silence := id) (fun _ => PeerRecord.silenceFits_congr rfl rfl)

/-! ### The join recall -/

theorem joins_iff {r : PeerRecord} : r.joins = true ↔ r.isAway = false ∧ r.interest ≠ 0 := by
  unfold PeerRecord.joins PeerRecord.isAway
  rw [Bool.and_eq_true, bne_iff_ne]
  cases r.state <;> simp

theorem joined_station (s : State) (r : PeerRecord) : (s.joined r).station = r.station := by
  unfold State.joined
  split
  · rfl
  · split <;> rfl

theorem recallHeld_joined (s : State) (hr : r.RecallHeld) : (s.joined r).RecallHeld := by
  unfold State.joined
  split
  next hbegin =>
    refine PeerRecord.recallHeld_beginRecall hbegin.2 ((IndexSet.subset_iff _ _).2 fun i hi => ?_)
    unfold State.joinNeed at hi
    rw [IndexSet.mem_diff, Bool.and_eq_true] at hi
    exact hi.1
  · split
    · exact PeerRecord.recallHeld_recalled r
    · exact hr

/-- The join recall changes records that are here alone, and leaves them here. -/
theorem joined_cases (s : State) (r : PeerRecord) :
    s.joined r = r ∨ r.isAway = false ∧ (s.joined r).isAway = false ∧ (s.joined r).silence = r.silence := by
  unfold State.joined
  split
  next hbegin => exact .inr ⟨(joins_iff.1 hbegin.1).1, rfl, rfl⟩
  · split
    next hdone => exact .inr ⟨(joins_iff.1 hdone.1).1, rfl, rfl⟩
    · exact .inl rfl

theorem not_lost_of_here (h : r.isAway = false) : r.state ≠ .lost := by
  intro hlost
  simp [PeerRecord.isAway, hlost] at h

theorem held_joinRecall (h : s.peerView.Held) : s.joinRecall.peerView.Held := by
  have hsorted : tableSorted (fun r : PeerRecord => r.station.toNat) s.peers.records := h.table.sorted
  have heq := State.joinRecall_eq hsorted
  have hrecords : s.joinRecall.peers.records = s.peers.records.map s.joined := by rw [heq]
  have hasking : s.joinRecall.peers.asking =
      s.peers.asking.map (fun a => { a with owned := a.owned && decide (a.target ∉ s.joinDone) }) := by rw [heq]
  have hwindows : s.joinRecall.notices.windows = s.notices.windows := by
    rw [heq]
    exact foldl_offer_windows (fun m => ⟨.peer .recallDone m, s.control.clock⟩) _ _
  obtain ⟨u, hside, hu⟩ := PeerSide.joinRecall s
  have hview : s.joinRecall.peerView = u.peerView := by rw [hu]; rfl
  rw [hview]
  rw [hu] at hrecords hasking hwindows
  refine held_of_peerSide hside hwindows ?_ ?_ ?_ fun hc => ?_
  · refine h.table.mapRecords hrecords (by rw [← State.bumpFree_peers, ← hu, heq]; rfl) (joined_station s) (fun r => ?_)
      (fun r => recallHeld_joined s) (fun r _ hfits => ?_) (fun r => ?_)
    · unfold State.joined
      split
      · rfl
      · split <;> rfl
    · rcases joined_cases s r with hsame | ⟨hhere, hjoined, hsilence⟩
      · rw [hsame]; exact hfits
      · exact PeerRecord.silenceFits_of_here hfits (not_lost_of_here hhere) hsilence hjoined
    · rcases joined_cases s r with hsame | ⟨hhere, hjoined, _⟩
      · rw [hsame]
      · exact iff_of_false (not_lost_of_here hjoined) (not_lost_of_here hhere)
  · refine h.marker.disowned (Q := fun m => m ∈ s.joinDone) hasking fun m r hm hr hrd => ?_
    refine ⟨s.joined r, ?_, ?_⟩
    · refine (PeerUnit.find?_map hrecords (joined_station s) m).trans ?_
      rw [show s.peers.find? m = some r from hr]
      rfl
    · obtain rfl := PeerUnit.find?_station hr
      unfold State.joined
      split
      next => rfl
      next hbegin =>
        split
        next hdone =>
          refine absurd ((State.mem_joinDone hsorted (tableFind_mem hr).1).2 ⟨hdone.1, ?_, hdone.2⟩) hm
          exact by_contra fun hneed => hbegin ⟨hdone.1, hneed⟩
        next => exact hrd
  · have hwant : s.joinRecall.arbiter.wants.ask = s.joinRecall.peers.wantsAsk := by
      rw [heq]
      unfold PeerUnit.wantsAsk
      dsimp only
      rw [Option.isNone_map]
    rw [hu] at hwant
    exact hwant
  · have hnil : s.peers.records = [] := h.empty (decide_eq_true hc)
    rw [State.bumpFree_peers] at hrecords
    rw [hrecords, hnil]
    rfl

/-! ### The classification of a frame -/

/-- A station that may take a frame from `sender`: no own ASK is in flight, it is past COMMIT, and the sender is another
station on the line. -/
structure Receives (s : State) (sender : Station) : Prop where
  landed : s.peers.asking = none
  committed : s.control.state ≠ .configuring
  names : namesStation sender = true
  other : s.control.station ≠ some sender

theorem asks_of_landed {u : PeerUnit} (h : u.asking = none) (n : Station) : u.asks n = false := by
  unfold PeerUnit.asks
  rw [h]

theorem landed_of_target {u v : PeerUnit} (h : u.asking = none)
    (ht : v.asking.map AskFlight.target = u.asking.map AskFlight.target) : v.asking = none := by
  rw [h, Option.map_none] at ht
  exact Option.map_eq_none_iff.1 ht

theorem classified_interest (f : Frame) (t : Timing) (asked : Bool) (start : Timer) (r : PeerRecord) :
    (r.classified f t asked start).interest = r.interest := by
  have hwelcomed : (r.welcomed f t).interest = r.interest := by
    unfold PeerRecord.welcomed
    split <;> rfl
  have hchecked : ∀ (x : PeerRecord) (carried next : Byte), (x.checked carried next).interest = x.interest := by
    intro x carried next
    unfold PeerRecord.checked
    split <;> rfl
  have hsequenced : ((r.welcomed f t).sequenced f).interest = (r.welcomed f t).interest := by
    unfold PeerRecord.sequenced
    split
    · exact hchecked _ _ _
    · exact hchecked _ _ _
    · rfl
  have hinformed : ∀ x : PeerRecord, (x.informed f).interest = x.interest := by
    intro x
    unfold PeerRecord.informed
    split <;> rfl
  exact (PeerRecord.SameLink.settled f asked start _).interest.trans ((hinformed _).trans (hsequenced.trans hwelcomed))

theorem atEpoch_interest (f : Frame) (r : PeerRecord) : (r.atEpoch f).interest = r.interest := by
  unfold PeerRecord.atEpoch
  split
  · rfl
  · unfold PeerRecord.restarted
    rw [PeerRecord.freshStart_eq]
    rfl

/-- The table after a classification that has reworked the sender's record. -/
theorem tableHeld_classified {windows : Vector Window 8} {own : Option Station} {u v : PeerUnit} {f : Frame} {t : Timing}
    {start : Timer} (h : u.TableHeld windows own (fun m => m ≠ f.sender)) (hknown : r.Known windows own)
    (hstation : r.station = f.sender) (hrecall : r.RecallHeld) (hepoch : r.epoch = f.epoch)
    (k : (u.unlisted f.sender).Reworked f.sender (r.classified f t false start) v) :
    v.TableHeld windows own (fun _ => True) := by
  have htaken := PeerRecord.takenFrom_classified hepoch t false start
  exact h.reworked k
    (hknown.congr ((PeerUnit.find?_station k.self).trans hstation.symm) (classified_interest f t false start r))
    (hrecall.classified f t start) (PeerRecord.silenceFits_of_heard htaken.silence htaken.here)
    (not_lost_of_here htaken.here)

/-- Room for a record: the table keeps its laws and has fewer than 32 records (R55). -/
theorem tableHeld_makeRoom (h : s.peerView.Held) (hroom : s.makeRoom = some t) :
    t.peers.TableHeld s.notices.windows s.control.station (fun _ => True) ∧ t.peers.records.length < 32 ∧
      t.peers.asking.map AskFlight.target = s.peers.asking.map AskFlight.target := by
  unfold State.makeRoom at hroom
  split at hroom
  next hlt =>
    cases hroom
    exact ⟨h.table, hlt, rfl⟩
  next =>
    obtain ⟨m, hm, rfl⟩ := Option.map_eq_some_iff.1 hroom
    refine ⟨{ h.table.dropRecord m with }, ?_, ?_⟩
    · obtain ⟨r, hr, rfl⟩ := h.table.exists_reclaimed hm
      exact (tableErase_length_lt (key := fun r : PeerRecord => r.station.toNat) hr).trans_le h.table.length
    · unfold State.reclaimRecord
      rw [State.disown_asking, Option.map_map]
      rfl

theorem recallHeld_newRecord (s : State) (f : Frame) : (s.newRecord f).RecallHeld :=
  PeerRecord.recallHeld_freshStart ⟨rfl, rfl, rfl, rfl⟩ _

theorem held_classify {f : Frame} (h : s.peerView.Held) (hs : s.Receives f.sender) : (s.classify f).peerView.Held := by
  have hside := PeerSide.classify s f
  have hwindows := State.classify_windows s f
  cases hr : s.peers.find? f.sender with
  | some r =>
    have k := State.reworked_classify_known hr
    rw [asks_of_landed hs.landed] at k
    have hepoch : (r.atEpoch f).station = f.sender := PeerUnit.find?_station (State.reworked_checkEpoch hr).self
    have hknown : (r.atEpoch f).Known s.notices.windows s.control.station :=
      (h.table.known _ r hr).congr (hepoch.trans (PeerUnit.find?_station hr).symm) (atEpoch_interest f r)
    have htable := tableHeld_classified h.table.mono hknown hepoch ((h.table.recalls _ r trivial hr).atEpoch f)
      (r.atEpoch_epoch f) k
    exact held_of_peerSide hside hwindows htable (.of_none (landed_of_target hs.landed k.target))
      (by rw [State.classify_known hr]; rfl) fun hc => absurd hc hs.committed
  | none =>
    cases hroom : s.makeRoom with
    | none =>
      rw [State.classify_overflow hr hroom]
      exact h.congr (by unfold State.peerView; rw [State.peerOverflow, State.offer_windows]; rfl)
    | some t =>
      obtain ⟨htable, hlength, htarget⟩ := tableHeld_makeRoom h hroom
      have hknown : (t.newRecord f).Known s.notices.windows s.control.station := by
        refine ⟨?_, ?_, ?_⟩
        · rw [State.newRecord_station]; exact hs.names
        · rw [State.newRecord_station]; exact hs.other
        · rw [State.newRecord_station, ← State.makeRoom_windows hroom, ← (PeerSide.makeRoom hroom).control_station]
          unfold State.newRecord
          rw [PeerRecord.freshStart_eq]
          rfl
      have hcreated : (t.createRecord f).peers.TableHeld s.notices.windows s.control.station (fun m => m ≠ f.sender) :=
        htable.insertRecord hlength (t.newRecord_station f) hknown
      have k := State.reworked_classify_new hr hroom
      have hlanded : (t.createRecord f).peers.asking = none := landed_of_target hs.landed htarget
      rw [asks_of_landed hlanded] at k
      have hclassified := tableHeld_classified hcreated hknown (t.newRecord_station f) (recallHeld_newRecord t f)
        (t.newRecord_epoch f) k
      exact held_of_peerSide hside hwindows hclassified (.of_none (landed_of_target hlanded k.target))
        (by rw [State.classify_new hr hroom]; rfl) fun hc => absurd hc hs.committed

/-! ### Merges -/

/-- Another station's ASK covers what it asks; a need covered whole is met (R79, R80). -/
theorem held_mergeAsk (h : s.peerView.Held) (hlanded : s.peers.asking = none) (n : Station) (asked : IndexSet) :
    (s.mergeAsk n asked).peerView.Held := by
  unfold State.mergeAsk
  split
  · exact h
  next r hr =>
    split
    next hcond =>
      have hdue : r.askDue = true := (Bool.and_eq_true_iff.1 hcond).1
      have hrecall := h.table.recalls _ r trivial hr
      have hfits := h.table.silence _ r trivial hr
      have hstate := hrecall.due hdue
      have hlost : r.state ≠ .lost := by
        rw [hstate]
        exact nofun
      have k := (PeerUnit.Reworked.refl hr).mapPeer (f := fun r => { r with covered := r.covered ||| asked })
        (fun _ => rfl)
      have hmarker : ∀ {v : PeerUnit}, v.asking.map AskFlight.target = s.peers.asking.map AskFlight.target →
          v.MarkerHeld := fun ht => .of_none (landed_of_target hlanded ht)
      refine held_of_peerSide (((PeerSide.mapPeer s _ _).trans (.testMet _ _)).trans (.judgeAsk _))
        (State.testMet_windows _ _) ?_ ?_ rfl fun hc => absurd hc (h.committed hr)
      · rw [State.judgeAsk_peers, State.testMet_eq k.self]
        split
        next =>
          exact tableHeld_reworked h hr hlost (k.mapPeer (f := fun r => r.met _) (fun _ => rfl)) rfl
            (PeerRecord.recallHeld_met hrecall.bounded hstate (hrecall.recovering.1 hstate) (hrecall.dueAttempts hdue) _)
            hfits hlost
        next hnot =>
          refine tableHeld_reworked h hr hlost k rfl
            { hrecall with covered := fun _ => hdue, asks := fun _ => Bool.eq_false_iff.2 fun hsub => hnot ?_ } hfits hlost
          unfold State.meetsAt
          rw [asks_of_landed (u := (s.mapPeer n _).peers) hlanded, hdue, hsub]
          rfl
      · rw [State.judgeAsk_peers, State.testMet_eq k.self]
        split
        · exact hmarker rfl
        · exact hmarker rfl
    next => exact h

/-- The peer unit's event at a good frame (R54, R79). -/
theorem held_peerEvent {f : Frame} (h : s.peerView.Held) (hs : s.Receives f.sender) : (s.peerEvent f).peerView.Held := by
  have hclassified := held_classify h hs
  unfold State.peerEvent
  split
  · dsimp only
    split
    · exact hclassified
    · refine held_mergeAsk hclassified ?_ _ _
      have hmarker := (s.waitsHeld_true.classify trivial f).marker
      rw [hs.landed] at hmarker
      exact Option.not_isSome_iff_eq_none.1 (by rw [hmarker]; exact nofun)
  all_goals exact hclassified

end State

end Sys2Proof.Machine
end

section
/-! PROOFS. The laws of the Peer Table at station control, the publication unit, the arbiter and the local port: events
that leave the table alone or change all waits at once. -/

namespace Sys2Proof.Machine

open Sys2Proof

theorem NoticeUnit.finishTake_windows (u : NoticeUnit) (time : Word16) : (u.finishTake time).windows = u.windows := by
  unfold NoticeUnit.finishTake NoticeUnit.removeHead
  split
  · rfl
  · split <;> rfl
  · rfl

/-- Without records no station is LOST, so the loss list is empty. -/
theorem PeerUnit.TableHeld.lossList_nil {windows : Vector Window 8} {own : Option Station} {u : PeerUnit}
    (h : u.TableHeld windows own (fun _ => True)) (hrecords : u.records = []) : u.lossList = [] := by
  refine List.eq_nil_iff_forall_not_mem.2 fun n hn => ?_
  obtain ⟨r, hr, _⟩ := PeerUnit.isLost_iff.1 ((h.lost n trivial).1 hn)
  have hmem := (tableFind_mem hr).1
  rw [hrecords] at hmem
  cases hmem

namespace State

variable {s t : State} {n : Station} {f : Frame}

/-- What leaves the peer unit, the ASK want, the own number and the windows, and does not go back to CONFIGURING. -/
theorem held_congr (h : s.peerView.Held) (hpeers : t.peers = s.peers)
    (hwant : t.arbiter.wants.ask = s.arbiter.wants.ask) (hstation : t.control.station = s.control.station)
    (hwindows : t.notices.windows = s.notices.windows)
    (hstate : t.control.state = .configuring → s.control.state = .configuring) : t.peerView.Held := by
  unfold State.peerView
  rw [hpeers, hwant, hstation, hwindows]
  exact { h with empty := fun hc => h.empty (decide_eq_true (hstate (of_decide_eq_true hc))) }

/-- An empty Peer Table with the ASK want lowered keeps the laws whatever the own number and the windows are. -/
theorem held_of_noRecords (hrecords : s.peers.records = []) (hlist : s.peers.lossList = [])
    (hmarker : s.peers.MarkerHeld) (hwant : s.arbiter.wants.ask = false) : s.peerView.Held := by
  refine ⟨.nil hrecords hlist, hmarker, hwant.trans ?_, fun _ => hrecords⟩
  unfold PeerUnit.wantsAsk
  rw [show s.peerView.peers.records = [] from hrecords]
  rfl

/-- In CONFIGURING the own number and the windows may change, for no record depends on them (R49). -/
theorem held_of_configuring (h : s.peerView.Held) (hconfiguring : s.control.state = .configuring)
    (hpeers : t.peers = s.peers) (hwant : t.arbiter.wants.ask = false) : t.peerView.Held := by
  have hrecords : s.peers.records = [] := h.empty (decide_eq_true hconfiguring)
  refine held_of_noRecords ?_ ?_ ?_ hwant
  · rw [hpeers]; exact hrecords
  · rw [hpeers]; exact h.table.lossList_nil hrecords
  · rw [hpeers]; exact h.marker

theorem wants_ask_of_configuring (h : s.peerView.Held) (hconfiguring : s.control.state = .configuring) :
    s.arbiter.wants.ask = false := by
  have hrecords : s.peers.records = [] := h.empty (decide_eq_true hconfiguring)
  refine h.want.trans ?_
  unfold PeerUnit.wantsAsk
  rw [show s.peerView.peers.records = [] from hrecords]
  rfl

theorem held_enter (h : s.peerView.Held) {st : StationState} (hst : st ≠ .configuring) : (s.enter st).peerView.Held :=
  held_congr h rfl rfl rfl (State.offer_windows _ _) fun hc => absurd hc hst

theorem held_beginJoining (h : s.peerView.Held) : s.beginJoining.peerView.Held := by
  have hraised : ((s.setControl { s.control with helloDone := false }).setWant .hello true).peerView.Held :=
    held_congr h rfl rfl rfl rfl id
  exact held_enter hraised nofun

theorem held_enterListening (h : s.peerView.Held) (cause : Cause) : (s.enterListening cause).peerView.Held := by
  have hwaits := held_mapWaits h (g := Timer.hold) rfl
  rw [State.enterListening_eq]
  exact held_congr hwaits rfl rfl rfl (NoticeUnit.offer_windows _ _) nofun

/-! ### Station control -/

theorem held_publishExpiry (h : s.peerView.Held) : s.publishExpiry.peerView.Held := by
  unfold State.publishExpiry
  split
  · exact h
  · exact held_congr h rfl rfl rfl rfl id

theorem held_startPublishing (h : s.peerView.Held) : s.startPublishing.peerView.Held := by
  have htimers : (s.setPublication { s.publication with
      publishTimer := s.control.timing.publishFull
      beaconTimer := s.control.timing.beaconFull }).peerView.Held := held_congr h rfl rfl rfl rfl id
  exact held_publishExpiry htimers

theorem held_resumed (h : s.peerView.Held) : s.resumed.peerView.Held := by
  have hwaits := held_mapWaits h (g := Timer.resume) rfl
  have hcontrol : (((s.setControl { s.control with
      lineTroubleCount := 0, joinTimer := .stopped, helloDone := true }).setPublication s.publication.resume).setPeers
      (s.peers.mapWaits Timer.resume)).peerView.Held := held_congr hwaits rfl rfl rfl rfl id
  unfold State.resumed
  dsimp only
  split
  · exact hcontrol
  · exact held_startPublishing hcontrol

/-- The exit from LISTENING(LINE_TROUBLE), with the join recall where the window is open (R172). -/
theorem held_troubleExit (h : s.peerView.Held) : s.troubleExit.peerView.Held := by
  have hserve : ∀ u : State, u.peerView.Held → (u.raiseBeacon.enter .inService).peerView.Held := by
    intro u hu
    have hraised : u.raiseBeacon.peerView.Held := held_congr hu rfl rfl rfl rfl id
    exact held_enter hraised nofun
  rw [State.troubleExit_eq]
  refine hserve _ ?_
  split
  · exact held_joinRecall (held_resumed h)
  · exact held_resumed h

theorem held_goodFrameReport (h : s.peerView.Held) : s.goodFrameReport.peerView.Held := by
  unfold State.goodFrameReport
  split
  · split
    · exact held_congr h rfl rfl rfl rfl id
    · exact held_troubleExit h
  · exact h

theorem held_controlEvent (h : s.peerView.Held) (f : Frame) : (s.controlEvent f).peerView.Held := by
  unfold State.controlEvent State.takeHello
  refine held_goodFrameReport ?_
  split
  · split
    · exact held_congr h rfl rfl rfl rfl id
    · exact h
  · exact h

theorem held_duplicateDetected (h : s.peerView.Held) : s.duplicateDetected.peerView.Held := by
  have hflag : (s.setFaults { s.control.faults with duplicate := true }).peerView.Held :=
    held_congr h rfl rfl rfl rfl id
  have hcleared : ((s.setFaults { s.control.faults with duplicate := true }).setControl
      { (s.setFaults { s.control.faults with duplicate := true }).control with lineTroubleCount := 0 }).peerView.Held :=
    held_congr h rfl rfl rfl rfl id
  unfold State.duplicateDetected
  dsimp only
  split
  · exact held_enterListening hflag .duplicate
  · exact held_enterListening hflag .duplicate
  · exact held_enter hcleared nofun
  · exact held_enter hcleared nofun
  · exact hflag
  · exact hflag

/-! ### Reception -/

theorem held_publicationEvent (h : s.peerView.Held) (f : Frame) : (s.publicationEvent f).peerView.Held := by
  unfold State.publicationEvent
  split
  · split
    · unfold State.takeRequest
      dsimp only
      split
      · exact held_congr h rfl rfl rfl rfl id
      · exact held_congr h rfl rfl rfl rfl id
    · exact h
  all_goals exact h

/-- Of what a station needs to take a frame, station control changes at most the state, and not to CONFIGURING. -/
theorem Receives.controlEvent (hs : s.Receives n) (f : Frame) : (s.controlEvent f).Receives n := by
  have hreport : ∀ u : State, u.Receives n → u.goodFrameReport.Receives n := by
    intro u hu
    unfold State.goodFrameReport
    split
    · split
      · exact { hu with }
      · obtain ⟨_, _, _, hview, _, _, _⟩ := u.troubleExit_stationView
        have hasking := congrArg StationView.asking hview
        have hstation := congrArg StationView.station hview
        have hstate := congrArg StationView.state hview
        refine ⟨Option.not_isSome_iff_eq_none.1 ?_, ?_, hu.names, ?_⟩
        · rw [show u.troubleExit.peers.asking.isSome = u.peers.asking.isSome from hasking, hu.landed]
          exact nofun
        · rw [show u.troubleExit.control.state = .inService from hstate]
          exact nofun
        · rw [show u.troubleExit.control.station = u.control.station from hstation]
          exact hu.other
    · exact hu
  unfold State.controlEvent State.takeHello
  refine hreport _ ?_
  split
  · split
    · exact { hs with }
    · exact hs
  · exact hs

/-- The dispatch of a good frame, in either order of the blocks (R126, R127). -/
theorem held_dispatchGood (h : s.peerView.Held) (hs : s.Receives f.sender) : (s.dispatchGood f).peerView.Held := by
  have hfree : s.bumpFree.peerView.Held := held_congr h rfl rfl rfl rfl id
  have hfrees : s.bumpFree.Receives f.sender := { hs with }
  unfold State.dispatchGood
  refine held_publicationEvent ?_ f
  split
  · split
    · exact held_peerEvent (held_controlEvent hfree f) (hfrees.controlEvent f)
    · exact held_controlEvent (held_peerEvent hfree hfrees) f
  · exact held_controlEvent (held_peerEvent h hs) f

theorem namesStation_of_validate {w : WireFrame} (h : validate w = some f) : namesStation f.sender = true := by
  unfold validate at h
  split at h
  · split at h
    next hlead =>
      obtain ⟨body, _, rfl⟩ := Option.map_eq_some_iff.1 h
      exact (Bool.and_eq_true_iff.1 hlead).2
    · cases h
  · cases h

theorem held_judgeFrame (h : s.peerView.Held) (hlanded : s.peers.asking = none)
    (hcommitted : s.control.state ≠ .configuring) (w : WireFrame) : (s.judgeFrame w).peerView.Held := by
  have hcounted : ∀ frame : FrameUnit, (s.setFrame frame).peerView.Held := fun _ => held_congr h rfl rfl rfl rfl id
  unfold State.judgeFrame
  split
  · split
    next f hf =>
      dsimp only
      split
      · exact held_duplicateDetected (hcounted _)
      next hother =>
        have hreceives : s.Receives f.sender := by
          refine ⟨hlanded, hcommitted, namesStation_of_validate hf, fun hown => hother ?_⟩
          show (s.control.station == some f.sender) = true
          rw [hown, beq_self_eq_true]
        exact held_dispatchGood (hcounted _) { hreceives with }
    · exact hcounted _
  · exact hcounted _

/-- A frame judged at its end has found the station past COMMIT and with no ASK in flight (R124; log 7). -/
theorem held_frameEnd (h : s.peerView.Held) (hs : s.InOrder) {a : Assembly} (ha : s.frame.assembly = some a)
    (cells : List Level) (hf : finished (s.cellsTaken a cells).bits = true) :
    (if (s.cellsTaken a cells).own then s.finishAssembly
      else s.finishAssembly.judgeFrame (wireOfBits (s.cellsTaken a cells).bits)).peerView.Held := by
  have hended : s.finishAssembly.peerView.Held := held_congr h rfl rfl rfl rfl id
  split
  next => exact hended
  next hown =>
    have hlong := finished_length hf
    rw [State.cellsTaken_eq] at hlong
    simp only [List.length_append, List.length_map] at hlong
    have hflight : s.arbiter.inFlight = none := by
      by_contra hne
      exact hown (State.own_of_cellsTaken (hs.frames a ha) (by omega) hne)
    have hlanded : s.peers.asking = none := by
      have hasking : s.peers.asking.isSome = (s.arbiter.inFlight == some .ask) := hs.asking
      rw [hflight] at hasking
      exact Option.not_isSome_iff_eq_none.1 (by rw [hasking]; exact nofun)
    refine held_judgeFrame hended hlanded (fun hc => ?_) _
    have hnone : s.frame.assembly = none := hs.unconfigured hc
    rw [ha] at hnone
    cases hnone

theorem held_takeCells (h : s.peerView.Held) (cells : List Level) : (s.takeCells cells).peerView.Held := by
  rw [State.takeCells_eq]
  exact held_congr h rfl rfl rfl rfl id

theorem held_cutAssembly (h : s.peerView.Held) : s.cutAssembly.peerView.Held := by
  unfold State.cutAssembly
  split
  · exact h
  · exact held_congr h rfl rfl rfl rfl id

theorem held_freeLine (h : s.peerView.Held) : s.freeLine.peerView.Held :=
  held_congr (held_cutAssembly h) rfl rfl rfl rfl id

/-! ### Transmission -/

theorem held_contents {w : Want} (h : s.peerView.Held) (hc : s.contents w = some (f, t)) : t.peerView.Held := by
  have hupdate : ∀ alarm items, s.startUpdate alarm items = some (f, t) → t.peerView.Held := by
    intro alarm items hstart
    unfold State.startUpdate at hstart
    split at hstart
    · cases hstart
    · cases hstart
      unfold State.lowerAlarmIfNone
      split
      · exact held_congr h rfl rfl rfl rfl id
      · exact held_congr h rfl rfl rfl rfl id
  cases w with
  | alarm => exact hupdate _ _ hc
  | routine => exact hupdate _ _ hc
  | hello => cases hc; exact h
  | beacon => cases hc; exact h
  | ask => exact held_startAsk h hc
  | resend =>
    simp only [State.contents, State.startResend] at hc
    split at hc
    · cases hc
    · cases hc
      exact held_congr h rfl rfl rfl rfl id

/-- An ASK is declined where no record is due: then its want is lowered rightly (R74, R152). -/
theorem held_declined {w : Want} (h : s.peerView.Held) (hc : s.contents w = none) : (s.setWant w false).peerView.Held := by
  cases w with
  | ask =>
    have hdue : s.peers.records.any PeerRecord.askDue = false := by
      simp only [State.contents, State.startAsk] at hc
      split at hc
      next hnone =>
        refine List.any_eq_false.2 fun r hr => ?_
        exact List.find?_eq_none.1 hnone r hr
      next => cases hc
    refine { h with want := ?_ }
    show false = s.peers.wantsAsk
    unfold PeerUnit.wantsAsk
    rw [hdue]
    rfl
  | alarm | routine | hello | beacon | resend => exact held_congr h rfl rfl rfl rfl id

theorem held_startFirst (h : s.peerView.Held) (wants : List Want) : (s.startFirst wants).peerView.Held := by
  induction wants generalizing s with
  | nil => exact h
  | cons w rest ih =>
    unfold State.startFirst
    split
    · split
      next f u hc => exact held_congr (held_contents h hc) rfl rfl rfl rfl id
      next hc => exact ih (held_declined h hc)
    · exact ih h

theorem held_start (h : s.peerView.Held) : s.start.peerView.Held := by
  unfold State.start
  split
  · exact held_startFirst h _
  · exact h

theorem held_ownerCompleted (h : s.peerView.Held) (w : Want) : (s.ownerCompleted w).peerView.Held := by
  have hupdate : s.completeUpdate.peerView.Held := by
    unfold State.completeUpdate
    split
    · exact h
    · exact held_congr h rfl rfl rfl rfl id
  have hhello : s.completeHello.peerView.Held := by
    have hopened : ((s.setWant .hello false).setControl { s.control with
        helloDone := true, joinTimer := s.control.timing.joinFull }).peerView.Held := held_congr h rfl rfl rfl rfl id
    unfold State.completeHello
    dsimp only
    split
    · exact held_startPublishing hopened
    · exact held_congr h rfl rfl rfl rfl id
  cases w with
  | alarm => exact hupdate
  | hello => exact hhello
  | ask => exact held_completeAsk h
  | routine => exact hupdate
  | beacon => exact held_congr h rfl rfl rfl rfl id
  | resend => exact held_congr h rfl rfl rfl rfl id

theorem held_ownerReturned (h : s.peerView.Held) (w : Want) : (s.ownerReturned w).peerView.Held := by
  have hupdate : s.returnUpdate.peerView.Held := by
    unfold State.returnUpdate
    split
    · exact h
    · exact held_congr h rfl rfl rfl rfl id
  cases w with
  | alarm => exact hupdate
  | routine => exact hupdate
  | hello => exact h
  | beacon => exact h
  | ask => exact held_returnAsk h
  | resend => exact held_congr h rfl rfl rfl rfl id

theorem held_endFlight (h : s.peerView.Held) : s.endFlight.peerView.Held := by
  unfold State.endFlight
  split
  · exact held_enterListening h .command
  · exact h

/-- The end of the flight at the arbiter leaves the peer unit's side alone. -/
theorem held_land (h : s.peerView.Held) {x : Arbiter} (hx : x.wants = s.arbiter.wants) :
    (s.land.setArbiter x).peerView.Held :=
  held_congr h rfl (congrArg Wants.ask hx) rfl rfl id

theorem held_takeCompleted (h : s.peerView.Held) (w : Want) : (s.takeCompleted w).peerView.Held :=
  held_endFlight (held_ownerCompleted (held_land h (x := { s.land.arbiter with failures := 0 }) rfl) w)

theorem held_takeLost (h : s.peerView.Held) (w : Want) : (s.takeLost w).peerView.Held :=
  held_endFlight (held_ownerReturned
    (held_land h (x := { s.land.arbiter with arbLost := Tally.rise s.land.arbiter.arbLost }) rfl) w)

theorem held_lineTrouble (h : s.peerView.Held) : s.lineTrouble.peerView.Held := by
  have hflag : (s.setFaults { s.control.faults with lineTrouble := true }).peerView.Held :=
    held_congr h rfl rfl rfl rfl id
  exact held_enterListening hflag .lineTrouble

theorem held_takeFailed (h : s.peerView.Held) (w : Want) : (s.takeFailed w).peerView.Held := by
  have hlanded := held_land h (x := { s.land.arbiter with
    txFail := Tally.rise s.land.arbiter.txFail, failures := s.land.arbiter.failures + 1 }) rfl
  have hreturned := held_ownerReturned hlanded w
  unfold State.takeFailed
  dsimp only
  split
  · exact held_lineTrouble hreturned
  · exact held_endFlight hreturned

/-! ### The clock -/

theorem held_joinExpires (h : s.peerView.Held) : s.joinExpires.peerView.Held := by
  have hstopped : (s.joinRecall.setControl { s.joinRecall.control with joinTimer := .stopped }).peerView.Held :=
    held_congr (held_joinRecall h) rfl rfl rfl rfl id
  exact held_enter hstopped nofun

theorem held_idleTick (h : s.peerView.Held) : s.idleTick.peerView.Held :=
  held_mapTimers h (wait := Timer.tick) (silence := SilenceTimer.tick) rfl fun r => r.silenceFits_tick _

/-! ### The local port -/

theorem held_commitAll (h : s.peerView.Held) (hconfiguring : s.control.state = .configuring) :
    s.commitAll.peerView.Held := by
  have hlowered : (((s.setPoints s.points.commit).setPublication
      (Publication.fresh (s.setPoints s.points.commit).points.declared)).setArbiter
      { s.arbiter with wants := .lowered }).peerView.Held := held_of_configuring h hconfiguring rfl rfl
  exact held_beginJoining hlowered

theorem held_restartAll (s : State) : s.restartAll.peerView.Held :=
  held_beginJoining (held_of_noRecords rfl rfl (.of_none rfl) rfl)

theorem held_withdrawNow (h : s.peerView.Held) : s.withdrawNow.peerView.Held := by
  unfold State.withdrawNow
  split
  · exact held_congr h rfl rfl rfl rfl id
  · exact held_enterListening h .command

theorem held_rejoinNow (h : s.peerView.Held) : s.rejoinNow.peerView.Held :=
  held_beginJoining (held_congr (held_mapWaits h (g := Timer.drop) rfl) rfl rfl rfl rfl id)

/-- Every command that its class check lets pass keeps the laws of the Peer Table. -/
theorem held_perform (h : s.peerView.Held) {c : PortCommand} (hopen : c.classOf.opens s.control.state = true)
    (args : List Byte) : (s.perform args c).2.peerView.Held := by
  cases c with
  | readStatus => exact h
  | readPoint =>
    show (readPoint args s).2.peerView.Held
    unfold readPoint
    repeat' split
    all_goals exact h
  | takeNotice =>
    show (takeNotice args s).2.peerView.Held
    unfold takeNotice
    split
    · exact h
    · exact held_congr h rfl rfl rfl rfl id
  | readPeer =>
    show (readPeer args s).2.peerView.Held
    unfold readPeer
    repeat' split
    all_goals exact h
  | readTallies => exact held_congr h rfl rfl rfl rfl id
  | clearFault =>
    show (clearFault args s).2.peerView.Held
    unfold clearFault
    repeat' split
    all_goals exact held_congr h rfl rfl rfl rfl id
  | setIdentity =>
    have hconfiguring : s.control.state = .configuring := eq_of_beq hopen
    show (setIdentity args s).2.peerView.Held
    unfold setIdentity
    repeat' split
    all_goals exact held_of_configuring h hconfiguring rfl (wants_ask_of_configuring (s := s) h hconfiguring)
  | setTiming =>
    show (setTiming args s).2.peerView.Held
    unfold setTiming
    repeat' split
    all_goals exact held_congr h rfl rfl rfl rfl id
  | declarePoint =>
    show (declarePoint args s).2.peerView.Held
    unfold declarePoint
    repeat' split
    all_goals exact held_congr h rfl rfl rfl rfl id
  | setWindow =>
    have hconfiguring : s.control.state = .configuring := eq_of_beq hopen
    show (setWindow args s).2.peerView.Held
    unfold setWindow
    repeat' split
    all_goals exact held_of_configuring h hconfiguring rfl (wants_ask_of_configuring (s := s) h hconfiguring)
  | commit =>
    show (Machine.commit args s).2.peerView.Held
    unfold Machine.commit
    split
    · exact h
    · exact held_commitAll h (eq_of_beq hopen)
  | writePoint =>
    show (writePoint args s).2.peerView.Held
    unfold writePoint State.writeOwn
    dsimp only
    repeat' split
    all_goals exact held_congr h rfl rfl rfl rfl id
  | recallPeer =>
    show (recallPeer args s).2.peerView.Held
    unfold recallPeer
    repeat' split
    case isFalse hr hlost => exact held_forceRecall h hr hlost
    all_goals exact h
  | withdraw =>
    show (withdraw args s).2.peerView.Held
    unfold withdraw
    split
    · exact held_withdrawNow h
    · exact held_withdrawNow h
    · exact h
    · exact h
  | rejoin =>
    show (rejoin args s).2.peerView.Held
    unfold rejoin
    split
    · exact held_rejoinNow h
    all_goals exact h
  | restart => exact held_restartAll s

theorem held_transact (h : s.peerView.Held) (hc : s.collectingWf) (c : Option PortCommand) (ldi : List Bool) :
    (s.transact c ldi).peerView.Held := by
  generalize hu : s.transact c ldi = u
  have hclocked : s.Clocked u := hu ▸ s.transact_clocked c ldi
  cases hclocked with
  | moved => exact held_congr h rfl rfl rfl rfl id
  | taken d args p n hopen => exact held_congr (held_perform h (hopen hc) args) rfl rfl rfl rfl id

end State

end Sys2Proof.Machine
end

section
/-! PROOFS. Every command keeps the laws of the Peer Table, and O59. -/

namespace Sys2Proof.Machine

open Sys2Proof

/-- Of the other invariants it needs that flight and assembly agree, for a frame judged, and that a command being
collected is in its class. -/
theorem exec_peersHeld {s : State} (h : s.peerView.Held) (hs : s.InOrder) (hc : s.collectingWf) (i : Instr) :
    ∃ t, exec i s = .next t ∧ t.peerView.Held := by
  cases i with
  | badCommand ldi | setIdentity ldi | setTiming ldi | declarePoint ldi | setWindow ldi | commit ldi | readStatus ldi
  | readPoint ldi | takeNotice ldi | readPeer ldi | readTallies ldi | clearFault ldi | writePoint ldi | recallPeer ldi
  | withdraw ldi | rejoin ldi | restart ldi => exact ⟨_, rfl, State.held_transact h hc _ ldi⟩
  | transactionOpen =>
    refine ⟨_, rfl, ?_⟩
    split
    · exact State.held_congr h rfl rfl rfl rfl id
    · exact h
  | transactionClose => exact ⟨_, rfl, State.held_congr h rfl rfl rfl rfl id⟩
  | coldReset => exact ⟨_, rfl, State.held_of_noRecords rfl rfl (.of_none rfl) rfl⟩
  | noticeRemoval =>
    refine ⟨_, rfl, ?_⟩
    split
    · exact h
    · exact State.held_congr h rfl rfl rfl (NoticeUnit.finishTake_windows _ _) id
  | lineBusy cells =>
    refine ⟨_, rfl, ?_⟩
    split
    · dsimp only
      split
      · exact State.held_congr h rfl rfl rfl rfl id
      · refine State.held_takeCells ?_ cells
        exact State.held_congr h rfl rfl rfl rfl id
    · exact h
  | lineIdle cells =>
    refine ⟨_, rfl, ?_⟩
    split
    · exact State.held_freeLine (State.held_takeCells h cells)
    · exact h
  | lineBreak cells =>
    refine ⟨_, rfl, ?_⟩
    split
    · exact State.held_congr (State.held_cutAssembly (State.held_takeCells h cells)) rfl rfl rfl rfl id
    · exact h
  | stuck | earlyEdge | breakEnd =>
    refine ⟨_, rfl, ?_⟩
    split
    · exact State.held_congr h rfl rfl rfl rfl id
    · exact h
  | stuckEnd =>
    refine ⟨_, rfl, ?_⟩
    split
    · exact State.held_freeLine h
    · exact h
  | frameEnd cells =>
    refine ⟨_, rfl, ?_⟩
    split
    · exact h
    next a ha =>
      dsimp only
      split
      next hfinished => exact State.held_frameEnd h hs ha cells hfinished
      · exact h
  | transmitStart => exact ⟨_, rfl, State.held_start h⟩
  | completed =>
    refine ⟨_, rfl, ?_⟩
    split
    · split
      · refine State.held_takeCompleted ?_ _
        rw [State.finishOwn_eq]
        exact State.held_congr h rfl rfl rfl rfl id
      · exact h
    · exact h
  | lost =>
    refine ⟨_, rfl, ?_⟩
    split
    · split
      · exact State.held_takeCells (State.held_takeLost h _) _
      · exact h
    · exact h
  | bitError cells =>
    refine ⟨_, rfl, ?_⟩
    split
    · refine State.held_takeCells ?_ _
      exact State.held_congr (State.held_takeCells h (cells.take 1)) rfl rfl rfl rfl id
    · exact h
  | failed =>
    refine ⟨_, rfl, ?_⟩
    split
    · split
      · exact State.held_takeFailed h _
      · exact h
    · exact h
  | publishTimerExpiry =>
    refine ⟨_, rfl, ?_⟩
    split
    · refine State.held_publishExpiry ?_
      exact State.held_congr h rfl rfl rfl rfl id
    · exact h
  | beaconTimerExpiry | helloHoldExpiry =>
    refine ⟨_, rfl, ?_⟩
    split
    · exact State.held_congr h rfl rfl rfl rfl id
    · exact h
  | silenceTimerExpiry peer =>
    refine ⟨_, rfl, ?_⟩
    split
    next r hr =>
      split
      · exact State.held_silenceExpires h hr
      · exact h
    · exact h
  | recallWaitExpiry peer =>
    refine ⟨_, rfl, ?_⟩
    split
    next r hr =>
      split
      next hdue => exact State.held_recallWaitExpires h hr hdue
      · exact h
    · exact h
  | joinExpiry =>
    refine ⟨_, rfl, ?_⟩
    split
    · exact State.held_joinExpires h
    · exact h
  | millisecondClockAdvance => exact ⟨_, rfl, State.held_congr h rfl rfl rfl rfl id⟩

end Sys2Proof.Machine

open Sys2Proof Sys2Proof.Machine

/-- Settles O59: the laws with each record found by lookup are kept by every command and by an idle period, and are the
stated ones. A frame is judged only while nothing is in flight, so no ASK is in flight when a record changes under it. -/
theorem stepKeepsPeerLaws : Obligations.StepKeepsPeerLaws := by
  intro s t hflight hstation hcollecting hpeers hstep
  have h : s.peerView.Held := (State.peerView_held_iff s).2 hpeers
  have horder : s.InOrder := (State.inOrder_iff s).2 ⟨hflight, hstation⟩
  refine (State.peerView_held_iff t).1 ?_
  unfold Machine.step at hstep
  split at hstep
  · cases hstep
    exact State.held_idleTick h
  next c rest _ =>
    have hrest : ({ s with pending := rest } : State).peerView.Held := State.held_congr h rfl rfl rfl rfl id
    obtain ⟨u, hu, hheld⟩ := exec_peersHeld hrest { horder with } hcollecting c
    cases hu.symm.trans hstep
    exact hheld
end

section
/-! PROOFS. Recall and replay: the forced recall, merges of the ASKs of others, and what an own ASK and an own RESEND
carry. O19, O40 and O45. -/

namespace Sys2Proof.Machine

open Sys2Proof

/-! ### Forced recall -/

theorem recallPeer_found {s : State} {n : Byte} {r : PeerRecord} (hn : 1 ≤ n.toNat ∧ n.toNat ≤ 62)
    (hr : s.peers.find? (n.setWidth 6) = some r) :
    recallPeer [n] s = if r.state = .lost then (.refusal .badState, s) else (.ok, s.forceRecall r) := by
  unfold recallPeer
  simp only [stationArg_inside hn, hr]

theorem recallPeer_unknown {s : State} {n : Byte} (hn : 1 ≤ n.toNat ∧ n.toNat ≤ 62)
    (hnone : s.peers.find? (n.setWidth 6) = none) : recallPeer [n] s = (.refusal .notFound, s) := by
  unfold recallPeer
  simp only [stationArg_inside hn, hnone]

theorem recallPeer_outside {s : State} {n : Byte} (hn : ¬(1 ≤ n.toNat ∧ n.toNat ≤ 62)) :
    recallPeer [n] s = (.refusal .badArgument, s) := by
  unfold recallPeer
  simp only [stationArg_outside hn]

/-- A record whose recall is forced (R88). -/
def PeerRecord.forced (r : PeerRecord) : PeerRecord := r.beginRecall r.bounded

/-- A recall begun makes the record due, so the ASK want waits for the marker alone (R74, R88). -/
theorem State.forceRecall_of_bounded {s : State} {n : Station} {r : PeerRecord} (hr : s.peers.find? n = some r)
    (hneed : r.bounded ≠ 0) :
    s.forceRecall r =
      { s with
        peers := (s.mapPeer r.station PeerRecord.forced).peers
        arbiter := { s.arbiter with wants := { s.arbiter.wants with ask := s.peers.asking.isNone } } } := by
  obtain rfl := PeerUnit.find?_station hr
  have hself := State.find?_mapPeer_self (f := PeerRecord.forced) (fun _ => rfl) hr
  have hdue : (s.mapPeer r.station PeerRecord.forced).peers.records.any (fun r => r.askDue) = true :=
    List.any_eq_true.2 ⟨_, (tableFind_mem hself).1, rfl⟩
  have hforce : s.forceRecall r = (s.mapPeer r.station PeerRecord.forced).judgeAsk := if_neg hneed
  rw [hforce, State.judgeAsk_eq, hdue, Bool.true_and]
  rfl

/-! ### Merging -/

theorem PeerUnit.asks_eq_false_iff (u : PeerUnit) (n : Station) :
    u.asks n = false ↔ ∀ a ∈ u.asking, a.target ≠ n := by
  rw [← Bool.not_eq_true', PeerUnit.asks_eq, Option.all_eq_true]
  exact forall₂_congr fun a _ => decide_eq_true_iff

theorem State.meetsAt_iff (s : State) (n : Station) (r : PeerRecord) :
    s.meetsAt n r = true ↔ r.askDue = true ∧ IndexSet.diff r.need r.covered = 0 ∧ s.peers.asks n = false := by
  unfold State.meetsAt IndexSet.subset
  rw [Bool.and_eq_true, Bool.and_eq_true, beq_iff_eq, Bool.not_eq_true', and_assoc]

/-- A record with what another station asks of it covered (R79). -/
def PeerRecord.covering (asked : IndexSet) (r : PeerRecord) : PeerRecord := { r with covered := r.covered ||| asked }

theorem State.mergeAsk_none {s : State} {n : Station} (h : s.peers.find? n = none) (asked : IndexSet) :
    s.mergeAsk n asked = s := by
  unfold State.mergeAsk
  rw [h]

theorem State.mergeAsk_idle {s : State} {n : Station} {r : PeerRecord} (hr : s.peers.find? n = some r)
    (h : ¬(r.askDue = true ∧ s.peers.asks n = false)) (asked : IndexSet) : s.mergeAsk n asked = s := by
  unfold State.mergeAsk
  rw [hr]
  exact if_neg (by rwa [Bool.and_eq_true, Bool.not_eq_true'])

/-- A merge covers what is asked; the test that follows meets a need that is then covered whole (R79, R80). -/
theorem State.mergeAsk_due {s : State} {n : Station} {r : PeerRecord} (hr : s.peers.find? n = some r)
    (hdue : r.askDue = true) (hquiet : s.peers.asks n = false) (asked : IndexSet) :
    s.mergeAsk n asked =
      (s.mapPeer n (fun x =>
        if IndexSet.diff r.need (r.covered ||| asked) = 0 then x.met s.recallStart
        else x.covering asked)).judgeAsk := by
  have hself := State.find?_mapPeer_self (f := PeerRecord.covering asked) (fun _ => rfl) hr
  have hmeets : (s.mapPeer n (PeerRecord.covering asked)).meetsAt n (r.covering asked) = true ↔
      IndexSet.diff r.need (r.covered ||| asked) = 0 :=
    (State.meetsAt_iff _ n _).trans ⟨fun h => h.2.1, fun h => ⟨hdue, h, hquiet⟩⟩
  have hmerge : s.mergeAsk n asked = ((s.mapPeer n (PeerRecord.covering asked)).testMet n).judgeAsk := by
    unfold State.mergeAsk
    rw [hr]
    exact if_pos (by rw [hdue, hquiet]; rfl)
  rw [hmerge, State.testMet_eq hself]
  by_cases hcovered : IndexSet.diff r.need (r.covered ||| asked) = 0
  · rw [if_pos (hmeets.2 hcovered), State.mapPeer_mapPeer s n (f := PeerRecord.covering asked) (fun _ => rfl)]
    simp only [if_pos hcovered]
    rfl
  · rw [if_neg fun h => hcovered (hmeets.1 h)]
    simp only [if_neg hcovered]

/-! ### The start of an ASK -/

/-- In a sorted table the first record that passes a test is the one of the lowest key. -/
theorem find?_of_lowest {α : Type} {key : α → Nat} {p : α → Bool} {x : α} {l : List α} (hsorted : tableSorted key l)
    (hx : x ∈ l) (hp : p x = true) (hlowest : ∀ y ∈ l, p y = true → key x ≤ key y) : l.find? p = some x := by
  induction l with
  | nil => cases hx
  | cons y ys ih =>
    obtain ⟨hfirst, hrest⟩ := List.pairwise_cons.1 hsorted
    rcases List.mem_cons.1 hx with rfl | hx
    · exact List.find?_cons_of_pos hp
    · have hpasses : ¬p y = true := fun hy =>
        Nat.lt_irrefl _ (Nat.lt_of_lt_of_le (hfirst x hx) (hlowest y List.mem_cons_self hy))
      rw [List.find?_cons_of_neg hpasses]
      exact ih hrest hx fun z hz => hlowest z (List.mem_cons_of_mem y hz)

theorem State.startAsk_none {s : State} (h : ∀ r ∈ s.peers.records, r.askDue = false) : s.startAsk = none := by
  have hnone : s.peers.dueRecord? = none :=
    List.find?_eq_none.2 fun r hr => Bool.eq_false_iff.1 (h r hr)
  unfold State.startAsk
  rw [hnone]

/-- The marker filled, the ASK want falls (R74, R75). -/
theorem State.startAsk_some {s : State} {r : PeerRecord} (h : s.peers.dueRecord? = some r) :
    s.startAsk =
      some (s.askFrame r,
        { s with
          peers := { s.peers with asking := some ⟨r.station, IndexSet.diff r.need r.covered, true⟩ }
          arbiter := { s.arbiter with wants := { s.arbiter.wants with ask := false } } }) := by
  unfold State.startAsk
  rw [h]
  dsimp only
  rw [State.judgeAsk_eq, State.setPeers_peers, Option.isNone_some, Bool.and_false]
  rfl

/-! ### The items of a RESEND -/

/-- Indexes that each give an item of their own give one item each, in their order. -/
theorem filterMap_index {item : Index → Option Item} {l : List Index}
    (h : ∀ i ∈ l, ∃ x, item i = some x ∧ x.index = i) : (l.filterMap item).map Item.index = l := by
  induction l with
  | nil => rfl
  | cons i l ih =>
    obtain ⟨x, hx, hindex⟩ := h i List.mem_cons_self
    rw [List.filterMap_cons_some hx, List.map_cons, hindex, ih fun j hj => h j (List.mem_cons_of_mem i hj)]

/-- What a RESEND would carry for an index (R92). -/
def State.replayItem? (s : State) (i : Index) : Option Item := (s.points.own? i).bind OwnEntry.replayItem

theorem State.replayItem?_eq_some {s : State} {i : Index} {x : Item} (h : s.replayItem? i = some x) :
    ∃ e ∈ s.points.own, ∃ p, e.published = some p ∧ x = ⟨e.index, e.size, p.version, p.value⟩ := by
  obtain ⟨e, he, hitem⟩ := Option.bind_eq_some_iff.1 h
  obtain ⟨p, hp, rfl⟩ := Option.map_eq_some_iff.1 hitem
  exact ⟨e, (tableFind_mem he).1, p, hp, rfl⟩

/-- A member of the Replay Set has been published, so it has an item (R90). -/
theorem State.exists_replayItem? {s : State} (h : s.publishing.Held) {i : Index}
    (hi : IndexSet.mem s.publication.replay i = true) : ∃ x, s.replayItem? i = some x ∧ x.index = i := by
  obtain ⟨e, he, rfl, hsome⟩ := (h.published i).1 (h.replay i hi)
  obtain ⟨p, hp⟩ := Option.ne_none_iff_exists'.1 hsome
  refine ⟨⟨e.index, e.size, p.version, p.value⟩, ?_, rfl⟩
  rw [State.replayItem?, PointTable.own?_of_mem h.ownSorted he, Option.bind_some, OwnEntry.replayItem, hp]
  rfl

/-- The items of the whole Replay Set in ascending order, of which a RESEND takes a run (R92). -/
def State.replayItems (s : State) : List Item := (IndexSet.members s.publication.replay).filterMap s.replayItem?

theorem State.resendItems_eq (s : State) : s.resendItems = fitting 30 0 s.replayItems := rfl

theorem State.replayItems_index {s : State} (h : s.publishing.Held) :
    s.replayItems.map Item.index = IndexSet.members s.publication.replay :=
  filterMap_index fun i hi => State.exists_replayItem? h ((IndexSet.mem_members _ i).1 hi)

theorem State.mem_replayItems {s : State} {x : Item} (hx : x ∈ s.replayItems) :
    ∃ e ∈ s.points.own, ∃ p, e.published = some p ∧ x = ⟨e.index, e.size, p.version, p.value⟩ := by
  obtain ⟨_, _, hitem⟩ := List.mem_filterMap.1 hx
  exact State.replayItem?_eq_some hitem

/-- A run of the Replay Set in ascending order, with the items that carry it and the rest (R92). -/
structure State.TakesReplay (s : State) (items : List Item) (rest : List Index) : Prop where
  run : items.map Item.index ++ rest = IndexSet.members s.publication.replay
  fits : (items.map (fun i => i.size.itemBytes)).sum ≤ 30
  longest : ∀ j ∈ rest.head?, ∀ e ∈ s.points.own, e.index = j →
    30 < (items.map (fun i => i.size.itemBytes)).sum + e.size.itemBytes
  published : ∀ i ∈ items, ∃ e ∈ s.points.own, ∃ p,
    e.published = some p ∧ i = ⟨e.index, e.size, p.version, p.value⟩

theorem State.exists_takesReplay {s : State} (h : s.publishing.Held) : ∃ rest, s.TakesReplay s.resendItems rest := by
  rw [State.resendItems_eq]
  obtain ⟨left, hleft⟩ := exists_fitting_append 30 0 s.replayItems
  refine ⟨left.map Item.index, ?_, ?_, fun j hj e he hej => ?_, fun i hi => ?_⟩
  · rw [← List.map_append, hleft]
    exact State.replayItems_index h
  · have hsum := fitting_sum_le (Nat.zero_le 30) s.replayItems
    omega
  · rw [List.head?_map] at hj
    obtain ⟨i, hi, rfl⟩ := Option.map_eq_some_iff.1 hj
    have hmem : i ∈ s.replayItems := by
      rw [← hleft]
      exact List.mem_append_right _ (List.mem_of_mem_head? hi)
    obtain ⟨x, hx, p, _, rfl⟩ := State.mem_replayItems hmem
    obtain rfl := OwnEntry.eq_of_index h.ownSorted he hx hej
    have hlongest := fitting_longest hleft _ hi
    rw [Nat.zero_add] at hlongest
    exact hlongest
  · exact State.mem_replayItems ((fitting_sublist 30 0 _).subset hi)

theorem State.resendItems_of_empty {s : State} (h : s.publication.replay = 0) : s.resendItems = [] := by
  refine List.eq_nil_iff_forall_not_mem.2 fun i hi => ?_
  have hmem := State.mem_resendItems hi
  rw [h] at hmem
  exact Bool.false_ne_true ((IndexSet.mem_zero i.index).symm.trans hmem)

end Sys2Proof.Machine

open Sys2Proof Sys2Proof.Machine

/-- Settles O19, by the record that the station byte finds. -/
theorem recallPeerForcesTheNeed : Obligations.RecallPeerForcesTheNeed := by
  intro s n hs hstate
  have hopen : PortCommand.recallPeer.classOf.opens s.control.state = true := bne_iff_ne.2 hstate
  have hexec : exec (.recallPeer (portBits [0x22, n])) s = .next (State.answer 0x22 [n] (recallPeer [n] s)) :=
    exec_fixed .recallPeer [n] hs hopen (fun _ => rfl)
  rw [hexec]
  refine ⟨fun r forced hn hr hlost hforced => ?_, fun hn => ?_, fun hn hnone => ?_, fun r hn hr hlost => ?_⟩
  · obtain rfl : forced = r.bounded := hforced
    rw [recallPeer_found hn hr, if_neg hlost]
    refine ⟨fun hempty => ?_, fun hneed => ?_⟩
    · rw [State.forceRecall, if_pos hempty]
      rfl
    · rw [State.forceRecall_of_bounded hr hneed]
      rw [← PeerUnit.find?_station hr] at hr
      exact ⟨_, _, rfl, rfl, rfl, rfl, State.find?_mapPeer_self (f := PeerRecord.forced) (fun _ => rfl) hr,
        fun m hm => State.find?_mapPeer_other (f := PeerRecord.forced) s (fun _ => rfl) hm⟩
  · rw [recallPeer_outside hn]
    rfl
  · rw [recallPeer_unknown hn hnone]
    rfl
  · rw [recallPeer_found hn hr, if_pos hlost]
    rfl

/-- Settles O40: a merge is a cover followed by the test, and a frame that takes indexes makes the test alone. -/
theorem asksOfOthersMergeAndMeet : Obligations.AsksOfOthersMergeAndMeet := by
  intro s n r quiet met hr hquiet hmet
  have hasks : quiet ↔ s.peers.asks n = false := by
    rw [hquiet]
    exact (s.peers.asks_eq_false_iff n).symm
  obtain rfl : met = fun x => x.met s.recallStart := funext fun x =>
    (hmet x).trans (congrArg (fun start => x.met start) s.recallStart_eq.symm)
  refine ⟨fun asked => ⟨fun hidle => ?_, fun hdue hq records hrecords => ?_⟩, fun before => ⟨?_, fun hno => ?_⟩,
    fun m asked hnone => State.mergeAsk_none hnone asked⟩
  · exact State.mergeAsk_idle hr (fun h => hidle ⟨h.1, hasks.2 h.2⟩) asked
  · rw [State.mergeAsk_due hr hdue (hasks.1 hq), State.judgeAsk_eq, hrecords]
    rfl
  · intro htaken hdue hcovered hq
    rw [State.metStep_eq hr, if_pos ⟨htaken, (s.meetsAt_iff n r).2 ⟨hdue, hcovered, hasks.1 hq⟩⟩]
    rfl
  · rw [State.metStep_eq hr, if_neg]
    rintro ⟨htaken, hmeets⟩
    obtain ⟨hdue, hcovered, hnone⟩ := (s.meetsAt_iff n r).1 hmeets
    exact hno ⟨htaken, hdue, hcovered, hasks.2 hnone⟩

/-- Settles O45, by what each owner takes at the start of its frame. -/
theorem askAndResendCarryWhatIsDue : Obligations.AskAndResendCarryWhatIsDue := by
  intro s n hn
  rw [← State.ownNumber_of_station hn]
  refine ⟨State.startAsk_none, fun r hr hdue hsorted hlowest => ?_,
    fun hempty => State.startResend_none.2 (State.resendItems_of_empty hempty), fun hwf hne => ?_⟩
  · exact State.startAsk_some (find?_of_lowest hsorted hr hdue hlowest)
  · have h := (State.publishing_held_iff s).2 hwf
    have hitems : s.resendItems ≠ [] := fun hnil => hne (State.replay_eq_zero_of_resendItems h hnil)
    obtain ⟨rest, hrun⟩ := State.exists_takesReplay h
    exact ⟨s.resendItems, rest, hitems, hrun.run, hrun.fits, hrun.longest, hrun.published,
      State.startResend_some hitems⟩

end

section
/-! PROOFS. What reaches the Notice Queue outside the local port: every event of the peer unit, of station control, of the
line and of the arbiter leaves the port alone and changes the notice unit by offers alone. -/

namespace Sys2Proof.Machine

open Sys2Proof

/-- The second notice unit is the first after some offers. -/
def NoticeUnit.Offered (u v : NoticeUnit) : Prop := ∃ rs : List NoticeRecord, v = rs.foldl NoticeUnit.offer u

namespace NoticeUnit.Offered

variable {u v w : NoticeUnit}

theorem refl (u : NoticeUnit) : u.Offered u := ⟨[], rfl⟩

theorem single (u : NoticeUnit) (r : NoticeRecord) : u.Offered (u.offer r) := ⟨[r], rfl⟩

theorem trans (h : u.Offered v) (k : v.Offered w) : u.Offered w := by
  obtain ⟨rs, rfl⟩ := h
  obtain ⟨qs, rfl⟩ := k
  exact ⟨rs ++ qs, List.foldl_append.symm⟩

/-- What each offer keeps, offers keep. -/
theorem keeps {P : NoticeUnit → Prop} (hP : ∀ u r, P u → P (u.offer r)) (h : u.Offered v) (hu : P u) : P v := by
  obtain ⟨rs, rfl⟩ := h
  induction rs generalizing u with
  | nil => exact hu
  | cons r rs ih => exact ih (hP u r hu)

theorem wf (h : u.Offered v) (hu : u.wf) : v.wf := h.keeps (P := NoticeUnit.wf) (fun _ r hw => NoticeUnit.offer_wf hw r) hu

theorem mark_none (h : u.Offered v) : v.mark = .none ↔ u.mark = .none :=
  h.keeps (P := fun x => x.mark = .none ↔ u.mark = .none) (fun x r hx => (x.offer_mark_none r).trans hx) Iff.rfl

end NoticeUnit.Offered

/-- An event outside the local port: the port stays, and the notice unit changes by offers alone. -/
structure State.OffersOnly (s t : State) : Prop where
  port : t.port = s.port
  notices : s.notices.Offered t.notices

namespace State.OffersOnly

variable {s t u : State}

theorem same (hport : t.port = s.port) (hnotices : t.notices = s.notices) : s.OffersOnly t :=
  ⟨hport, hnotices ▸ .refl _⟩

theorem refl (s : State) : s.OffersOnly s := .same rfl rfl

theorem trans (h : s.OffersOnly t) (k : t.OffersOnly u) : s.OffersOnly u :=
  ⟨k.port.trans h.port, h.notices.trans k.notices⟩

/-- Before what leaves port and notices alone. -/
theorem congr (h : s.OffersOnly t) (hport : u.port = t.port) (hnotices : u.notices = t.notices) : s.OffersOnly u :=
  h.trans (.same hport hnotices)

/-- Updates that leave port and notices alone, and then an offer. -/
theorem offer (b : NoticeBody) (hport : t.port = s.port) (hnotices : t.notices = s.notices) : s.OffersOnly (t.offer b) :=
  (State.OffersOnly.same hport hnotices).trans ⟨rfl, .single _ _⟩

theorem judgeAsk (h : s.OffersOnly t) : s.OffersOnly t.judgeAsk := h.congr rfl rfl

/-- After what leaves port and notices alone. -/
theorem after (k : t.OffersOnly u) (hport : t.port = s.port) (hnotices : t.notices = s.notices) : s.OffersOnly u :=
  (State.OffersOnly.same hport hnotices).trans k

theorem foldl {α : Type} {f : State → α → State} (hf : ∀ (s : State) (a : α), s.OffersOnly (f s a)) (l : List α) (s : State) :
    s.OffersOnly (l.foldl f s) := by
  induction l generalizing s with
  | nil => exact .refl s
  | cons a l ih => exact (hf s a).trans (ih _)

/-! ### Items -/

theorem createEntry (s : State) (k : Key) (i : Item) : s.OffersOnly (s.createEntry k i) := by
  unfold State.createEntry
  split
  · exact .offer _ rfl rfl
  · split
    · exact .offer _ rfl rfl
    · exact .offer _ rfl rfl

theorem applyItem (s : State) (k : Key) (i : Item) (clash : Bool) : s.OffersOnly (s.applyItem k i clash) := by
  have h : s.OffersOnly ((s.putMirror (appliedEntry k i s.control.clock)).offer (.updated k i.version)) :=
    .offer _ rfl rfl
  unfold State.applyItem
  cases clash
  · exact h
  · exact h.trans (.offer _ rfl rfl)

theorem takeItem (s : State) (n : Station) (interest : IndexSet) (c : Carrier) (i : Item) :
    s.OffersOnly (s.takeItem n interest c i) := by
  unfold State.takeItem
  dsimp only
  split
  · split
    · exact .createEntry _ _ _
    · exact .refl s
  · split
    · exact .refl s
    · exact .offer _ rfl rfl
    · exact .applyItem _ _ _ _

theorem itemsStep (s : State) (f : Frame) : s.OffersOnly (s.itemsStep f) := by
  have hitem : ∀ (s : State) (i : Item), s.OffersOnly (s.handOver f.sender f.body.carrier i) := fun s i =>
    (takeItem s _ _ _ i).congr rfl rfl
  exact .foldl hitem _ _

/-! ### The classification -/

theorem hear (s : State) (f : Frame) : s.OffersOnly (s.hear f) := by
  unfold State.hear
  dsimp only
  split
  · exact .offer _ rfl rfl
  · exact .same rfl rfl

theorem sequenceStep (s : State) (f : Frame) : s.OffersOnly (s.sequenceStep f) := by
  have hcheck : ∀ carried next : Byte, s.OffersOnly (s.checkSequence f.sender carried next) := by
    intro carried next
    unfold State.checkSequence
    split
    · exact .same rfl rfl
    · split
      · exact .same rfl rfl
      · exact .offer _ rfl rfl
  unfold State.sequenceStep
  split
  · exact hcheck _ _
  · exact hcheck _ _
  all_goals exact .refl s

theorem contentsStep (s : State) (f : Frame) : s.OffersOnly (s.contentsStep f) := by
  unfold State.contentsStep State.takeBeacon
  split
  · split
    · exact .refl s
    · exact .same rfl rfl
  all_goals exact .same rfl rfl

theorem recoveryComplete (s : State) (n : Station) : s.OffersOnly (s.recoveryComplete n) := .offer _ rfl rfl

theorem recoveryStep (s : State) (n : Station) : s.OffersOnly (s.recoveryStep n) := by
  unfold State.recoveryStep
  split
  · split
    · exact .recoveryComplete s n
    · exact .refl s
  · exact .refl s

theorem testMet (s : State) (n : Station) : s.OffersOnly (s.testMet n) := by
  unfold State.testMet
  split
  · exact .refl s
  · split
    · exact .same rfl rfl
    · exact .refl s

theorem classifyRecord (s : State) (f : Frame) : s.OffersOnly (s.classifyRecord f) := by
  have h := ((((hear s f).trans (sequenceStep _ f)).trans (contentsStep _ f)).trans (itemsStep _ f)).trans
    (recoveryStep _ f.sender)
  unfold State.classifyRecord State.metStep
  dsimp only
  split
  · exact h.trans (.testMet _ _)
  · exact h

theorem checkEpoch (s : State) (r : PeerRecord) (f : Frame) : s.OffersOnly (s.checkEpoch r f) := by
  unfold State.checkEpoch
  split
  · exact .refl s
  · exact .offer _ rfl rfl

theorem makeRoom (h : s.makeRoom = some t) : s.OffersOnly t := by
  unfold State.makeRoom at h
  split at h
  · cases h
    exact .refl s
  · obtain ⟨n, _, rfl⟩ := Option.map_eq_some_iff.1 h
    exact .same rfl rfl

theorem classify (s : State) (f : Frame) : s.OffersOnly (s.classify f) := by
  unfold State.classify
  split
  · exact ((checkEpoch s _ f).trans (.classifyRecord _ f)).judgeAsk
  · split
    next u hroom =>
      have hcreated : u.OffersOnly (u.createRecord f) := .offer _ rfl rfl
      exact (((makeRoom hroom).trans hcreated).trans (.classifyRecord _ f)).judgeAsk
    next => exact .offer _ rfl rfl

theorem mergeAsk (s : State) (n : Station) (asked : IndexSet) : s.OffersOnly (s.mergeAsk n asked) := by
  unfold State.mergeAsk
  split
  · exact .refl s
  · split
    · have hcovered : s.OffersOnly (s.mapPeer n (fun r => { r with covered := r.covered ||| asked })) := .same rfl rfl
      exact (hcovered.trans (.testMet _ n)).judgeAsk
    · exact .refl s

theorem peerEvent (s : State) (f : Frame) : s.OffersOnly (s.peerEvent f) := by
  unfold State.peerEvent
  split
  · dsimp only
    split
    · exact .classify s f
    · exact (classify s f).trans (.mergeAsk _ _ _)
  all_goals exact .classify s f

/-! ### Timers, forced recall and the join -/

theorem silenceExpires (s : State) (r : PeerRecord) : s.OffersOnly (s.silenceExpires r) := by
  have hsilent : s.OffersOnly (s.fallSilent r) := by
    unfold State.fallSilent
    refine judgeAsk ?_
    exact .offer _ rfl rfl
  unfold State.silenceExpires
  split
  · exact hsilent
  · exact hsilent
  · exact .offer _ rfl rfl
  · exact .refl s

theorem recallWaitExpires (s : State) (r : PeerRecord) : s.OffersOnly (s.recallWaitExpires r) := by
  have hfailed : s.OffersOnly (s.recallFailed r) := .offer _ rfl rfl
  unfold State.recallWaitExpires
  split
  · exact .same rfl rfl
  · exact hfailed.judgeAsk

theorem forceRecall (s : State) (r : PeerRecord) : s.OffersOnly (s.forceRecall r) := by
  unfold State.forceRecall
  split
  · exact .refl s
  · exact .same rfl rfl

theorem joinRecall (s : State) : s.OffersOnly s.joinRecall := by
  have hrecords : s.OffersOnly (s.setPeers { s.peers with records := s.peers.records.map s.joinRecord }) :=
    .same rfl rfl
  exact (hrecords.trans (.foldl recoveryComplete _ _)).congr rfl rfl

/-! ### Station control and reception -/

theorem enter (s : State) (st : StationState) : s.OffersOnly (s.enter st) := .offer _ rfl rfl

theorem enterListening (s : State) (cause : Cause) : s.OffersOnly (s.enterListening cause) := .offer _ rfl rfl

theorem duplicateDetected (s : State) : s.OffersOnly s.duplicateDetected := by
  unfold State.duplicateDetected
  dsimp only
  split
  · exact .offer _ rfl rfl
  · exact .offer _ rfl rfl
  · exact .offer _ rfl rfl
  · exact .offer _ rfl rfl
  all_goals exact .same rfl rfl

theorem publishExpiry (s : State) : s.OffersOnly s.publishExpiry := by
  unfold State.publishExpiry
  split
  · exact .refl s
  · exact .same rfl rfl

theorem startPublishing (s : State) : s.OffersOnly s.startPublishing := by
  unfold State.startPublishing
  exact (publishExpiry _).after rfl rfl

theorem troubleExit (s : State) : s.OffersOnly s.troubleExit := by
  have hresumed : ∀ c : Control, s.OffersOnly (((s.setControl c).setPublication s.publication.resume).setPeers
      (s.peers.mapWaits Timer.resume)) := fun _ => .same rfl rfl
  have hserves : ∀ u : State, u.OffersOnly (u.raiseBeacon.enter .inService) := fun _ => .offer _ rfl rfl
  unfold State.troubleExit
  refine State.OffersOnly.trans ?_ (hserves _)
  dsimp only
  split
  · refine State.OffersOnly.trans ?_ (.joinRecall _)
    split
    · exact hresumed _
    · exact (hresumed _).trans (.startPublishing _)
  · split
    · exact hresumed _
    · exact (hresumed _).trans (.startPublishing _)

theorem controlEvent (s : State) (f : Frame) : s.OffersOnly (s.controlEvent f) := by
  have hreport : ∀ u : State, u.OffersOnly u.goodFrameReport := by
    intro u
    unfold State.goodFrameReport
    split
    · split
      · exact .same rfl rfl
      · exact .troubleExit u
    · exact .refl u
  have hhello : s.OffersOnly s.takeHello := by
    unfold State.takeHello
    split
    · exact .same rfl rfl
    · exact .refl s
  unfold State.controlEvent
  split
  · exact hhello.trans (hreport _)
  · exact hreport s

theorem publicationEvent (s : State) (f : Frame) : s.OffersOnly (s.publicationEvent f) := by
  unfold State.publicationEvent State.takeRequest
  split
  · split
    · dsimp only
      split
      · exact .same rfl rfl
      · exact .same rfl rfl
    · exact .refl s
  all_goals exact .refl s

/-- The dispatch of a good frame, in either order of the blocks (R126, R127). -/
theorem dispatchGood (s : State) (f : Frame) : s.OffersOnly (s.dispatchGood f) := by
  have hfree : s.OffersOnly s.bumpFree := .same rfl rfl
  unfold State.dispatchGood
  refine State.OffersOnly.trans ?_ (.publicationEvent _ f)
  split
  · split
    · exact (hfree.trans (.controlEvent _ f)).trans (.peerEvent _ f)
    · exact (hfree.trans (.peerEvent _ f)).trans (.controlEvent _ f)
  · exact (peerEvent s f).trans (.controlEvent _ f)

theorem judgeFrame (s : State) (w : WireFrame) : s.OffersOnly (s.judgeFrame w) := by
  have hcounted : ∀ u : FrameUnit, s.OffersOnly (s.setFrame u) := fun _ => .same rfl rfl
  unfold State.judgeFrame
  split
  · split
    · dsimp only
      split
      · exact (hcounted _).trans (.duplicateDetected _)
      · exact (hcounted _).trans (.dispatchGood _ _)
    · exact hcounted _
  · exact hcounted _

/-! ### The line -/

theorem takeCells (s : State) (cells : List Level) : s.OffersOnly (s.takeCells cells) := by
  rw [State.takeCells_eq]
  exact .same rfl rfl

theorem cutAssembly (s : State) : s.OffersOnly s.cutAssembly := by
  unfold State.cutAssembly
  split
  · exact .refl s
  · exact .same rfl rfl

theorem freeLine (s : State) : s.OffersOnly s.freeLine := (cutAssembly s).congr rfl rfl

theorem finishOwn (s : State) : s.OffersOnly s.finishOwn := by
  rw [State.finishOwn_eq]
  exact .same rfl rfl

/-! ### Transmission -/

/-- What an owner supplies announces nothing (R151). -/
theorem contents {w : Want} {f : Frame} (hc : s.contents w = some (f, t)) : s.OffersOnly t := by
  have hupdate : ∀ alarm items, s.startUpdate alarm items = some (f, t) → s.OffersOnly t := by
    intro alarm items hstart
    by_cases hitems : items = []
    · rw [State.startUpdate_none.2 hitems] at hstart
      cases hstart
    · rw [State.startUpdate_some hitems] at hstart
      cases hstart
      exact .same rfl rfl
  cases w with
  | alarm => exact hupdate _ _ hc
  | routine => exact hupdate _ _ hc
  | hello | beacon =>
    cases hc
    exact .refl s
  | ask =>
    simp only [State.contents, State.startAsk] at hc
    split at hc
    · cases hc
    · cases hc
      exact .same rfl rfl
  | resend =>
    have hstart : s.startResend = some (f, t) := hc
    by_cases hitems : s.resendItems = []
    · rw [State.startResend_none.2 hitems] at hstart
      cases hstart
    · rw [State.startResend_some hitems] at hstart
      cases hstart
      exact .same rfl rfl

theorem startFirst (s : State) (wants : List Want) : s.OffersOnly (s.startFirst wants) := by
  induction wants generalizing s with
  | nil => exact .refl s
  | cons w rest ih =>
    unfold State.startFirst
    split
    · split
      next hc => exact (contents hc).congr rfl rfl
      next => exact (ih _).after rfl rfl
    · exact ih s

theorem start (s : State) : s.OffersOnly s.start := by
  unfold State.start
  split
  · exact .startFirst s _
  · exact .refl s

theorem ownerCompleted (s : State) (w : Want) : s.OffersOnly (s.ownerCompleted w) := by
  have hupdate : s.OffersOnly s.completeUpdate := by
    unfold State.completeUpdate
    split
    · exact .refl s
    · exact .same rfl rfl
  have hhello : s.OffersOnly s.completeHello := by
    unfold State.completeHello
    dsimp only
    split
    · exact (startPublishing _).after rfl rfl
    · exact .same rfl rfl
  have hask : s.OffersOnly s.completeAsk := by
    unfold State.completeAsk
    split
    · exact .refl s
    · dsimp only
      split
      · exact .same rfl rfl
      · exact .same rfl rfl
  cases w with
  | alarm | routine => exact hupdate
  | hello => exact hhello
  | ask => exact hask
  | beacon | resend => exact .same rfl rfl

theorem ownerReturned (s : State) (w : Want) : s.OffersOnly (s.ownerReturned w) := by
  have hupdate : s.OffersOnly s.returnUpdate := by
    unfold State.returnUpdate
    split
    · exact .refl s
    · exact .same rfl rfl
  cases w with
  | alarm | routine => exact hupdate
  | hello | ask | beacon | resend => exact .same rfl rfl

theorem endFlight (s : State) : s.OffersOnly s.endFlight := by
  unfold State.endFlight
  split
  · exact .enterListening s .command
  · exact .refl s

theorem takeCompleted (s : State) (w : Want) : s.OffersOnly (s.takeCompleted w)  := by
  unfold State.takeCompleted
  dsimp only
  refine State.OffersOnly.trans ?_ (.endFlight _)
  exact (ownerCompleted _ w).after rfl rfl

theorem takeLost (s : State) (w : Want) : s.OffersOnly (s.takeLost w)  := by
  unfold State.takeLost
  dsimp only
  refine State.OffersOnly.trans ?_ (.endFlight _)
  exact (ownerReturned _ w).after rfl rfl

theorem lineTrouble (s : State) : s.OffersOnly s.lineTrouble := .offer _ rfl rfl

theorem takeFailed (s : State) (w : Want) : s.OffersOnly (s.takeFailed w) := by
  have hreturned : s.OffersOnly ((s.land.setArbiter { s.land.arbiter with
      txFail := Tally.rise s.land.arbiter.txFail, failures := s.land.arbiter.failures + 1 }).ownerReturned w) :=
    (ownerReturned _ w).after rfl rfl
  unfold State.takeFailed
  dsimp only
  split
  · exact hreturned.trans (.lineTrouble _)
  · exact hreturned.trans (.endFlight _)

end State.OffersOnly

end Sys2Proof.Machine
end

section
/-! PROOFS. The Notice Queue and the transaction: what bits, owners and every other command do to the form of the port and to
the mark of the head being taken (O55). -/

namespace Sys2Proof.Machine

open Sys2Proof

/-- Notices and transaction in form, and the head marked as taken with its port (R101 to R110, R180, R182). -/
structure State.TakeHeld (s : State) : Prop where
  notices : s.notices.wf
  port : s.port.wf
  mark : s.notices.mark ≠ .none ↔ s.port.takesNotice = true
  length : s.port.takesNotice = true → s.port.responseLength = 9

theorem State.takeHeld_iff (s : State) : s.TakeHeld ↔ s.notices.wf ∧ s.portWf :=
  ⟨fun h => ⟨h.notices, h.port, h.mark, h.length⟩, fun ⟨hnotices, hport, hmark, hlength⟩ =>
    ⟨hnotices, hport, hmark, hlength⟩⟩

/-! ### The port alone -/

namespace Port

variable {p q : Port}

theorem wf_reset : Port.reset.wf := by decide

theorem wf_opened : Port.opened.wf := by decide

theorem wf_taken (code : Byte) (args : List Byte) (reply : Reply) : (Port.taken code args reply).wf := by
  simp [Port.taken, Port.wf]

theorem wf_collecting (code : Byte) (args : List Byte) (needed : Option Nat) : (Port.collecting code args needed).wf := by
  simp [Port.collecting, Port.wf]

/-- An open port has a byte for LDO (R182). -/
theorem ldoByte_ne_none (h : p.wf) (hopen : p.phase ≠ .closed) : p.ldoByte ≠ none := by
  obtain ⟨_, _, _, _, _, hwaiting, _, _⟩ := h
  unfold Port.ldoByte
  cases hp : p.phase with
  | closed => exact absurd hp hopen
  | result =>
    obtain ⟨_, hreply, _⟩ := hwaiting (.inr hp)
    simpa using hreply
  | _ => simp

theorem wf_drive (h : p.wf) : p.drive.wf := by
  by_cases hclosed : p.phase = .closed
  · obtain rfl : p = Port.reset := h.2.2.1 hclosed
    exact wf_reset
  have hldo := ldoByte_ne_none h hclosed
  obtain ⟨hbits, _, _, hcode, hrest⟩ := h
  refine ⟨hbits, fun _ => by simpa [Port.drive] using hldo, fun hp => absurd hp hclosed, fun hp => ?_, hrest⟩
  obtain ⟨hform, hbegin⟩ := hcode hp
  refine ⟨?_, fun hnil => ?_⟩
  · unfold Port.drive
    rw [hform]
  · obtain rfl : p = Port.opened := hbegin hnil
    rfl

theorem wf_resulting (h : p.wf) (hp : p.phase = .waiting) : { p with phase := .result }.wf := by
  obtain ⟨hbits, hldo, _, _, _, hwaiting, _, _⟩ := h
  have hldo' := hldo (by rw [hp]; nofun)
  have hreply := hwaiting (.inl hp)
  exact ⟨hbits, fun _ => hldo', nofun, nofun, nofun, fun _ => hreply, nofun, nofun⟩

/-- A bit sampled that completes no byte. -/
theorem wf_sampled (h : p.wf) (hopen : p.phase ≠ .closed) (hl : p.bits.length < 7) (b : Bool) :
    { p with bits := p.bits ++ [b] }.wf := by
  obtain ⟨_, hldo, _, hcode, hrest⟩ := h
  refine ⟨?_, hldo, fun hp => absurd hp hopen, fun hp => ⟨?_, fun hnil => ?_⟩, hrest⟩
  · rw [List.length_append]
    exact hl
  · rw [(hcode hp).1]
  · exact absurd hnil (List.append_ne_nil_of_right_ne_nil _ (List.cons_ne_nil _ _))

/-- The bits of a whole byte dropped after the code byte. -/
theorem wf_cleared (h : p.wf) (hopen : p.phase ≠ .closed) (hcode : p.phase ≠ .code) : { p with bits := [] }.wf := by
  obtain ⟨_, hldo, _, _, hrest⟩ := h
  exact ⟨Nat.zero_le 7, hldo, fun hp => absurd hp hopen, fun hp => absurd hp hcode, hrest⟩

/-- What a port may move on to with nothing done at the head of the queue: no take begins or ends. -/
structure Follows (q p : Port) : Prop where
  wf : q.wf
  takes : q.takesNotice = p.takesNotice
  length : q.takesNotice = true → q.responseLength = p.responseLength

theorem Follows.of_idle (hwf : q.wf) (hq : q.takesNotice = false) (hp : p.takesNotice = false) : q.Follows p :=
  ⟨hwf, hq.trans hp.symm, fun h => absurd (hq.symm.trans h) Bool.false_ne_true⟩

theorem takesNotice_of_not_replying (h : p.replying = false) : p.takesNotice = false := by
  unfold Port.takesNotice
  rw [h, Bool.false_and, Bool.false_and]

theorem takesNotice_iff :
    p.takesNotice = true ↔
      p.replying = true ∧ p.code = some PortCommand.takeNotice.code ∧ p.reply.map Reply.result = some .ok := by
  unfold Port.takesNotice
  rw [Bool.and_eq_true, Bool.and_eq_true, beq_iff_eq, beq_iff_eq, and_assoc]

/-- The last response byte of another command, or of a refused one. -/
theorem takesNotice_of_not_atRemoval (hr : p.atRemoval = false) (hp : p.phase = .response) (hl : p.bits.length = 7)
    (hlast : p.responseLength ≤ p.sent + 1) : p.takesNotice = false := by
  refine Bool.eq_false_iff.2 fun htakes => ?_
  obtain ⟨_, hcode, _⟩ := takesNotice_iff.1 htakes
  simp [Port.atRemoval, hp, hcode, hl, hlast] at hr

/-- A whole byte of the reply clocked out; the last of an accepted TAKE_NOTICE's response is NOTICE_REMOVAL's. -/
theorem follows_advance (h : p.wf) (hp : p.phase = .result ∨ p.phase = .response)
    (hnine : p.takesNotice = true → p.responseLength = 9)
    (hlast : p.phase = .response → p.responseLength ≤ p.sent + 1 → p.takesNotice = false) :
    p.advance.Follows p := by
  obtain ⟨hbits, hldo, _, _, _, hwaiting, hresponse, _⟩ := h
  have hldo' : p.ldo ≠ none := hldo (by rcases hp with hp | hp <;> rw [hp] <;> nofun)
  unfold Port.advance
  rcases hp with hp | hp
  · obtain ⟨hcode, hreply, hsent⟩ := hwaiting (.inr hp)
    simp only [hp]
    split
    next hzero =>
      have hidle : p.takesNotice = false := Bool.eq_false_iff.2 fun ht => by
        have := hnine ht
        omega
      exact .of_idle ⟨hbits, fun _ => hldo', nofun, nofun, nofun, nofun, nofun,
        fun _ => ⟨hcode, hreply, hsent.trans hzero.symm⟩⟩ rfl hidle
    next hne =>
      have hpos : p.sent < p.responseLength := by omega
      refine ⟨⟨hbits, fun _ => hldo', nofun, nofun, nofun, nofun, fun _ => ⟨hcode, hreply, hpos⟩, nofun⟩, ?_,
        fun _ => rfl⟩
      simp only [Port.takesNotice, Port.replying, hp]
      rfl
  · obtain ⟨hcode, hreply, _⟩ := hresponse hp
    simp only [hp]
    split
    next hmore =>
      exact ⟨⟨hbits, fun _ => hldo', nofun, nofun, nofun, nofun, fun _ => ⟨hcode, hreply, hmore⟩, nofun⟩,
        by simp only [Port.takesNotice, Port.replying, hp], fun _ => rfl⟩
    next hdone =>
      exact .of_idle ⟨hbits, fun _ => hldo', nofun, nofun, nofun, nofun, nofun, fun _ => ⟨hcode, hreply, rfl⟩⟩ rfl
        (hlast hp (by omega))

end Port

/-! ### The mark -/

theorem State.TakeHeld.follows {s : State} (h : s.TakeHeld) {p : Port} (k : p.Follows s.port) (n : Nat) :
    ({ s with port := p, freeCount := n } : State).TakeHeld where
  notices := h.notices
  port := k.wf
  mark := h.mark.trans (by rw [← k.takes])
  length hp := (k.length hp).trans (h.length (k.takes ▸ hp))

theorem State.TakeHeld.offers {s t : State} (h : s.TakeHeld) (k : s.OffersOnly t) : t.TakeHeld where
  notices := k.notices.wf h.notices
  port := k.port ▸ h.port
  mark := (not_congr k.notices.mark_none).trans (k.port ▸ h.mark)
  length := k.port ▸ h.length

/-- A queue in form whose head is not being taken. -/
structure NoticeUnit.Untaken (u : NoticeUnit) : Prop where
  wf : u.wf
  mark : u.mark = .none

theorem NoticeUnit.Untaken.offered {u v : NoticeUnit} (h : u.Untaken) (k : u.Offered v) : v.Untaken :=
  ⟨k.wf h.wf, k.mark_none.2 h.mark⟩

theorem State.TakeHeld.untaken {s : State} (h : s.TakeHeld) (hp : s.port.takesNotice = false) : s.notices.Untaken :=
  ⟨h.notices, not_not.1 fun hm => absurd (h.mark.1 hm) (Bool.eq_false_iff.1 hp)⟩

theorem NoticeUnit.Untaken.takeHeld {s : State} (h : s.notices.Untaken) (hwf : s.port.wf)
    (hp : s.port.takesNotice = false) : s.TakeHeld where
  notices := h.wf
  port := hwf
  mark := iff_of_false (not_not.2 h.mark) (Bool.eq_false_iff.1 hp)
  length ht := absurd ht (Bool.eq_false_iff.1 hp)

theorem NoticeUnit.untaken_reset (windows : Vector Window 8) :
    ({ NoticeUnit.reset with windows := windows } : NoticeUnit).Untaken :=
  ⟨⟨Nat.zero_le 32, .nil, nofun, ⟨nofun, fun h => absurd rfl h⟩, fun h => absurd rfl h⟩, rfl⟩

/-! ### Owners -/

/-- Of the commands' owners, those of TAKE_NOTICE, SET_WINDOW and RESTART alone act at the notice unit itself. -/
theorem State.OffersOnly.perform (s : State) (args : List Byte) {c : PortCommand} (htake : c ≠ .takeNotice)
    (hwindow : c ≠ .setWindow) (hrestart : c ≠ .restart) : s.OffersOnly (s.perform args c).2 := by
  cases c with
  | takeNotice => exact absurd rfl htake
  | setWindow => exact absurd rfl hwindow
  | restart => exact absurd rfl hrestart
  | readStatus | readTallies => exact .same rfl rfl
  | readPoint =>
    show s.OffersOnly (readPoint args s).2
    unfold readPoint
    repeat' split
    all_goals exact .refl s
  | readPeer =>
    show s.OffersOnly (readPeer args s).2
    unfold readPeer
    repeat' split
    all_goals exact .refl s
  | clearFault =>
    show s.OffersOnly (clearFault args s).2
    unfold clearFault
    repeat' split
    all_goals exact .same rfl rfl
  | setIdentity =>
    show s.OffersOnly (setIdentity args s).2
    unfold setIdentity
    repeat' split
    all_goals exact .same rfl rfl
  | setTiming =>
    show s.OffersOnly (setTiming args s).2
    unfold setTiming
    repeat' split
    all_goals exact .same rfl rfl
  | declarePoint =>
    show s.OffersOnly (declarePoint args s).2
    unfold declarePoint
    repeat' split
    all_goals exact .same rfl rfl
  | commit =>
    show s.OffersOnly (commit args s).2
    unfold commit
    split
    · exact .refl s
    · exact .offer _ rfl rfl
  | writePoint =>
    have hwritten : ∀ i value, s.OffersOnly (s.writeOwn i value) := by
      intro i value
      unfold State.writeOwn
      dsimp only
      split
      · exact .same rfl rfl
      · exact .same rfl rfl
    show s.OffersOnly (writePoint args s).2
    unfold writePoint
    split
    · split
      · exact hwritten _ _
      · exact .refl s
    · exact .refl s
  | recallPeer =>
    show s.OffersOnly (recallPeer args s).2
    unfold recallPeer
    repeat' split
    case isFalse => exact .forceRecall s _
    all_goals exact .refl s
  | withdraw =>
    have hnow : s.OffersOnly s.withdrawNow := by
      unfold State.withdrawNow
      split
      · exact .same rfl rfl
      · exact .enterListening s .command
    show s.OffersOnly (withdraw args s).2
    unfold withdraw
    split
    · exact hnow
    · exact hnow
    · exact .refl s
    · exact .refl s
  | rejoin =>
    show s.OffersOnly (rejoin args s).2
    unfold rejoin
    split
    · exact .offer _ rfl rfl
    all_goals exact .refl s

/-- No command but TAKE_NOTICE marks the head. -/
theorem NoticeUnit.Untaken.perform {s : State} (h : s.notices.Untaken) (args : List Byte) {c : PortCommand}
    (htake : c ≠ .takeNotice) : (s.perform args c).2.notices.Untaken := by
  by_cases hwindow : c = .setWindow
  · subst hwindow
    show (setWindow args s).2.notices.Untaken
    unfold setWindow
    repeat' split
    all_goals exact ⟨h.wf, h.mark⟩
  by_cases hrestart : c = .restart
  · subst hrestart
    have hannounced : (s.setNotices s.notices.restart).OffersOnly s.restartAll := .offer _ rfl rfl
    exact (NoticeUnit.untaken_reset s.notices.windows).offered hannounced.notices
  exact h.offered (State.OffersOnly.perform s args htake hwindow hrestart).notices

theorem NoticeRecord.bytes_length (r : NoticeRecord) : r.bytes.length = 9 := by
  obtain ⟨body, time⟩ := r
  cases body <;> rfl

theorem Port.taken_takesNotice {code : Byte} {args : List Byte} {reply : Reply}
    (h : code ≠ PortCommand.takeNotice.code ∨ reply.result ≠ .ok) : (Port.taken code args reply).takesNotice = false := by
  refine Bool.eq_false_iff.2 fun htakes => ?_
  obtain ⟨_, hcode, hok⟩ := Port.takesNotice_iff.1 htakes
  exact h.elim (fun hne => hne (Option.some.inj hcode)) (fun hne => hne (Option.some.inj hok))

theorem PortCommand.code_injective {c d : PortCommand} (h : c.code = d.code) : c = d := by
  have hofCode := congrArg PortCommand.ofCode h
  rw [PortCommand.ofCode_code, PortCommand.ofCode_code] at hofCode
  exact Option.some.inj hofCode

namespace State.TakeHeld

variable {s : State}

/-- An owner has acted: an accepted TAKE_NOTICE marks the head and its port returns nine bytes; no other command
begins a take (R108, R182). -/
theorem answer (h : s.TakeHeld) (hp : s.port.takesNotice = false) (args : List Byte) (c : PortCommand) :
    (State.answer c.code args (s.perform args c)).TakeHeld := by
  have huntaken := h.untaken hp
  by_cases hc : c = .takeNotice
  · subst hc
    show (State.answer _ args (takeNotice args s)).TakeHeld
    unfold takeNotice
    split
    · exact huntaken.takeHeld (s := State.answer _ args (Reply.refusal .empty, s)) (Port.wf_taken _ _ _)
        (Port.taken_takesNotice (.inr nofun))
    next head rest hq =>
      obtain ⟨hlen, hkeys, hoverflow, hcount, _⟩ := h.notices
      exact ⟨⟨hlen, hkeys, hoverflow, hcount, fun _ hnil => List.cons_ne_nil _ _ (hq.symm.trans hnil)⟩,
        Port.wf_taken _ _ _, iff_of_true nofun rfl, fun _ => head.bytes_length⟩
  · exact (huntaken.perform args hc).takeHeld (s := State.answer c.code args (s.perform args c)) (Port.wf_taken _ _ _)
      (Port.taken_takesNotice (.inl fun hcode => hc (PortCommand.code_injective hcode)))

/-! ### Bytes and bits -/

theorem refused (h : s.TakeHeld) (hp : s.port.takesNotice = false) (code : Byte) {r : ResultCode} (hr : r ≠ .ok) :
    (State.answer code [] (Reply.refusal r, s)).TakeHeld :=
  h.follows (.of_idle (Port.wf_taken _ _ _) (Port.taken_takesNotice (.inr hr)) hp) s.freeCount

theorem collect (h : s.TakeHeld) (hp : s.port.takesNotice = false) (c : PortCommand) (args : List Byte) :
    (s.collect c args).TakeHeld := by
  rcases State.collect_cases s c args with ⟨needed, hmissing⟩ | ⟨n, _, _, htaken⟩
  · rw [hmissing]
    exact h.follows (.of_idle (Port.wf_collecting _ _ _) rfl hp) s.freeCount
  · rw [htaken]
    exact h.answer hp _ c

theorem takeCode (h : s.TakeHeld) (hp : s.port.takesNotice = false) (code : Byte) : (s.takeCode code).TakeHeld := by
  unfold State.takeCode
  split
  · exact h.refused hp code nofun
  · split
    · exact h.collect hp _ _
    · exact h.refused hp code nofun

theorem takeArgument (h : s.TakeHeld) (hp : s.port.takesNotice = false) (b : Byte) : (s.takeArgument b).TakeHeld := by
  unfold State.takeArgument
  split
  · exact h.collect hp _ _
  · exact h

/-- A falling edge drives LDO, and may bring the result (R182). -/
theorem lclkFall (h : s.TakeHeld) (hopen : s.port.phase ≠ .closed) :
    s.lclkFall.TakeHeld ∧ s.lclkFall.port.phase ≠ .closed ∧ s.lclkFall.port.atRemoval = s.port.atRemoval := by
  unfold State.lclkFall
  split
  next hwaiting =>
    obtain ⟨hp, _⟩ := hwaiting
    dsimp only
    split
    · refine ⟨h.follows ⟨Port.wf_drive (Port.wf_resulting h.port hp), ?_, fun _ => rfl⟩ _, nofun, ?_⟩
      · simp only [Port.takesNotice, Port.replying, Port.drive, hp]
        rfl
      · simp only [Port.atRemoval, State.bumpFree_port, State.setPort_port, Port.drive, hp]
        rfl
    · exact ⟨h.follows ⟨Port.wf_drive h.port, rfl, fun _ => rfl⟩ _, hopen, rfl⟩
  · exact ⟨h.follows ⟨Port.wf_drive h.port, rfl, fun _ => rfl⟩ s.freeCount, hopen, rfl⟩

/-- A rising edge samples LDI; the eighth ends a byte, which is not the last of an accepted TAKE_NOTICE's response. -/
theorem lclkRise (h : s.TakeHeld) (hopen : s.port.phase ≠ .closed) (hr : s.port.atRemoval = false) (b : Bool) :
    (s.lclkRise b).TakeHeld := by
  unfold State.lclkRise
  split
  next hl => exact h.follows ⟨Port.wf_sampled h.port hopen hl b, rfl, fun _ => rfl⟩ s.freeCount
  next hl =>
    have hseven : s.port.bits.length = 7 := by
      have := h.port.1
      omega
    have hcleared : s.port.phase ≠ .code → (s.setPort { s.port with bits := [] }).TakeHeld := fun hp =>
      h.follows ⟨Port.wf_cleared h.port hopen hp, rfl, fun _ => rfl⟩ s.freeCount
    have hadvanced : s.port.phase = .result ∨ s.port.phase = .response →
        (s.setPort { s.port with bits := [] }.advance).TakeHeld := fun hp => by
      have hcode : s.port.phase ≠ .code := by rcases hp with hp | hp <;> rw [hp] <;> nofun
      refine (hcleared hcode).follows (Port.follows_advance (hcleared hcode).port hp h.length ?_) s.freeCount
      exact fun hresponse hlast => Port.takesNotice_of_not_atRemoval (p := s.port) hr hresponse hseven hlast
    have hidle : s.port.replying = false → s.port.takesNotice = false := Port.takesNotice_of_not_replying
    unfold State.takeByte
    cases hp : s.port.phase with
    | closed => exact absurd hp hopen
    | code =>
      simp only [State.setPort_port, hp, State.takeCode_setPort]
      exact h.takeCode (hidle (by simp [Port.replying, hp])) _
    | arguments =>
      simp only [State.setPort_port, hp]
      rw [← hp]
      exact (hcleared (by rw [hp]; nofun)).takeArgument (hidle (by simp [Port.replying, hp])) _
    | waiting | trailing =>
      simp only [State.setPort_port, hp]
      rw [← hp]
      exact hcleared (by rw [hp]; nofun)
    | result =>
      simp only [State.setPort_port, hp]
      rw [← hp]
      exact hadvanced (.inl hp)
    | response =>
      simp only [State.setPort_port, hp]
      rw [← hp]
      exact hadvanced (.inr hp)

theorem clockBit (h : s.TakeHeld) (b : Bool) : (s.clockBit b).TakeHeld := by
  unfold State.clockBit
  split
  · exact h
  next hopen =>
    obtain ⟨hfallen, hopen', hremoval⟩ := h.lclkFall hopen
    split
    · exact hfallen
    next hr => exact hfallen.lclkRise hopen' (hremoval.trans (Bool.eq_false_iff.2 hr)) b

theorem clock (h : s.TakeHeld) (l : List Bool) : (s.clock l).TakeHeld := by
  induction l generalizing s with
  | nil => exact h
  | cons b l ih => exact ih (h.clockBit b)

theorem transact (h : s.TakeHeld) (c : Option PortCommand) (ldi : List Bool) : (s.transact c ldi).TakeHeld := by
  unfold State.transact
  split
  · exact h.clock ldi
  · exact h

/-! ### Open, close and removal -/

theorem transactionOpen (h : s.TakeHeld) (hp : s.port.phase = .closed) : (s.setPort Port.opened).TakeHeld :=
  h.follows (.of_idle Port.wf_opened rfl (Port.takesNotice_of_not_replying (by simp [Port.replying, hp]))) s.freeCount

theorem transactionClose (h : s.TakeHeld) :
    ((s.setPort Port.reset).setNotices { s.notices with mark := .none }).TakeHeld := by
  obtain ⟨hlen, hkeys, hoverflow, hcount, _⟩ := h.notices
  have huntaken : ({ s.notices with mark := .none } : NoticeUnit).Untaken :=
    ⟨⟨hlen, hkeys, hoverflow, hcount, fun hm => absurd rfl hm⟩, rfl⟩
  exact huntaken.takeHeld (s := (s.setPort Port.reset).setNotices { s.notices with mark := .none }) Port.wf_reset rfl

/-- The end of a take clears the mark, and its port has sent its nine bytes (R109, R180). -/
theorem noticeRemoval (h : s.TakeHeld) (hm : s.notices.mark ≠ .none) :
    ((s.setNotices (s.notices.finishTake s.control.clock)).setPort s.port.clockedOut).TakeHeld := by
  obtain ⟨_, hcode, hok⟩ := Port.takesNotice_iff.1 (h.mark.1 hm)
  have hreply : s.port.reply ≠ none := fun hnone => by simp [hnone] at hok
  have hfinished : (s.notices.finishTake s.control.clock).Untaken := by
    refine ⟨NoticeUnit.finishTake_wf h.notices _, ?_⟩
    unfold NoticeUnit.finishTake
    split
    next hnone => exact hnone
    · rfl
    · rfl
  have hport : s.port.clockedOut.wf :=
    ⟨Nat.zero_le 7, nofun, nofun, nofun, nofun, nofun, nofun, fun _ => ⟨by rw [Port.clockedOut, hcode]; nofun, hreply, rfl⟩⟩
  exact hfinished.takeHeld
    (s := (s.setNotices (s.notices.finishTake s.control.clock)).setPort s.port.clockedOut) hport rfl

end State.TakeHeld

/-! ### Every command -/

theorem exec_takeHeld {s : State} (h : s.TakeHeld) (c : Instr) : ∃ t, exec c s = .next t ∧ t.TakeHeld := by
  cases c with
  | badCommand ldi | setIdentity ldi | setTiming ldi | declarePoint ldi | setWindow ldi | commit ldi | readStatus ldi
  | readPoint ldi | takeNotice ldi | readPeer ldi | readTallies ldi | clearFault ldi | writePoint ldi | recallPeer ldi
  | withdraw ldi | rejoin ldi | restart ldi => exact ⟨_, rfl, h.transact _ ldi⟩
  | transactionOpen =>
    refine ⟨_, rfl, ?_⟩
    split
    next hp => exact h.transactionOpen hp
    · exact h
  | transactionClose => exact ⟨_, rfl, h.transactionClose⟩
  | noticeRemoval =>
    refine ⟨_, rfl, ?_⟩
    split
    · exact h
    next hm => exact h.noticeRemoval hm
  | coldReset => exact ⟨_, rfl, (NoticeUnit.untaken_reset _).takeHeld Port.wf_reset rfl⟩
  | breakEnd | stuck | earlyEdge | beaconTimerExpiry | helloHoldExpiry =>
    refine ⟨_, rfl, h.offers ?_⟩
    split
    · exact .same rfl rfl
    · exact .refl s
  | millisecondClockAdvance => exact ⟨_, rfl, h.offers (.same rfl rfl)⟩
  | lineBusy cells =>
    refine ⟨_, rfl, h.offers ?_⟩
    split
    · dsimp only
      split
      · exact .same rfl rfl
      · exact (State.OffersOnly.takeCells _ cells).after rfl rfl
    · exact .refl s
  | lineIdle cells =>
    refine ⟨_, rfl, h.offers ?_⟩
    split
    · exact (State.OffersOnly.takeCells s cells).trans (.freeLine _)
    · exact .refl s
  | lineBreak cells =>
    refine ⟨_, rfl, h.offers ?_⟩
    split
    · exact ((State.OffersOnly.takeCells s cells).trans (.cutAssembly _)).congr rfl rfl
    · exact .refl s
  | stuckEnd =>
    refine ⟨_, rfl, h.offers ?_⟩
    split
    · exact .freeLine s
    · exact .refl s
  | frameEnd cells =>
    refine ⟨_, rfl, h.offers ?_⟩
    split
    · exact .refl s
    · dsimp only
      split
      · split
        · exact .same rfl rfl
        · exact (State.OffersOnly.judgeFrame _ _).after rfl rfl
      · exact .refl s
  | transmitStart => exact ⟨_, rfl, h.offers (.start s)⟩
  | completed =>
    refine ⟨_, rfl, h.offers ?_⟩
    split
    · split
      · exact (State.OffersOnly.finishOwn s).trans (.takeCompleted _ _)
      · exact .refl s
    · exact .refl s
  | lost =>
    refine ⟨_, rfl, h.offers ?_⟩
    split
    · split
      · exact (State.OffersOnly.takeLost s _).trans (.takeCells _ _)
      · exact .refl s
    · exact .refl s
  | bitError cells =>
    refine ⟨_, rfl, h.offers ?_⟩
    split
    · refine State.OffersOnly.trans ?_ (.takeCells _ _)
      exact (State.OffersOnly.takeCells s (cells.take 1)).congr rfl rfl
    · exact .refl s
  | failed =>
    refine ⟨_, rfl, h.offers ?_⟩
    split
    · split
      · exact .takeFailed s _
      · exact .refl s
    · exact .refl s
  | publishTimerExpiry =>
    refine ⟨_, rfl, h.offers ?_⟩
    split
    · exact (State.OffersOnly.publishExpiry _).after rfl rfl
    · exact .refl s
  | silenceTimerExpiry peer =>
    refine ⟨_, rfl, h.offers ?_⟩
    split
    · split
      · exact .silenceExpires s _
      · exact .refl s
    · exact .refl s
  | recallWaitExpiry peer =>
    refine ⟨_, rfl, h.offers ?_⟩
    split
    · split
      · exact .recallWaitExpires s _
      · exact .refl s
    · exact .refl s
  | joinExpiry =>
    refine ⟨_, rfl, h.offers ?_⟩
    split
    · refine State.OffersOnly.trans ?_ (.enter _ _)
      exact (State.OffersOnly.joinRecall s).congr rfl rfl
    · exact .refl s

end Sys2Proof.Machine

open Sys2Proof Sys2Proof.Machine

/-- Settles O55: offers keep the queue's form and set no mark on a head that has none; bits of a transaction begin a take
with an accepted TAKE_NOTICE alone, and close and removal end it. -/
theorem stepKeepsNoticesAndPort : Obligations.StepKeepsNoticesAndPort := by
  intro s t hnotices hport hstep
  have h : s.TakeHeld := s.takeHeld_iff.2 ⟨hnotices, hport⟩
  rw [← t.takeHeld_iff]
  unfold step at hstep
  split at hstep
  · cases hstep
    exact h.offers (.same rfl rfl)
  next c rest _ =>
    have hrest : ({ s with pending := rest } : State).TakeHeld := h.offers (.same rfl rfl)
    obtain ⟨u, hu, hheld⟩ := exec_takeHeld hrest c
    cases hu.symm.trans hstep
    exact hheld

end

section
/-! PROOFS. The notice unit's own events and its transaction: TAKE_NOTICE, offers, NOTICE_REMOVAL, the opening and closing of
a transaction (O16, O23, O24, O6). -/

namespace Sys2Proof.Machine

open Sys2Proof

/-! ### The response -/

/-- The nine bytes of a record, high byte of the time first (R197). -/
theorem NoticeRecord.bytes_eq (r : NoticeRecord) :
    r.bytes = r.body.bytes ++ [r.time.extractLsb' 8 8, r.time.extractLsb' 0 8] := rfl

/-- TAKE_NOTICE is open in every station state and has no argument bytes (R181, R195). -/
theorem exec_takeNotice {s : State} (hs : s.port = Port.opened) :
    exec (.takeNotice (portBits [0x03])) s = .next (State.answer 0x03 [] (takeNotice [] s)) :=
  exec_fixed .takeNotice [] hs rfl (fun _ => rfl)

theorem takeNotice_empty {s : State} (h : s.notices.queue = []) : takeNotice [] s = (.refusal .empty, s) := by
  unfold takeNotice
  rw [h]

theorem takeNotice_head {s : State} {head : NoticeRecord} {rest : List NoticeRecord}
    (h : s.notices.queue = head :: rest) :
    takeNotice [] s = (⟨.ok, head.bytes⟩, s.setNotices { s.notices with mark := .taking }) := by
  unfold takeNotice
  rw [h]

/-! ### Offers -/

namespace NoticeUnit

variable {u : NoticeUnit} {r : NoticeRecord} {k : Key}

theorem offer_of_passes (h : passes u.windows r.body = true) : u.offer r = u.take r := if_pos h

theorem offer_of_not_passes (h : passes u.windows r.body = false) : u.offer r = u := if_neg (Bool.eq_false_iff.1 h)

theorem holdsChange_iff : u.holdsChange k = true ↔ ∃ r ∈ u.queue, r.changeKey? = some k := by
  unfold NoticeUnit.holdsChange
  rw [List.any_eq_true]
  exact exists_congr fun r => and_congr_right fun _ => NoticeRecord.isChangeOf_iff k r

theorem holdsChange_eq_false_iff : u.holdsChange k = false ↔ ∀ r ∈ u.queue, r.changeKey? ≠ some k := by
  rw [← Bool.not_eq_true, holdsChange_iff]
  exact not_exists.trans (forall_congr' fun _ => not_and)

theorem take_updated_held (h : u.holdsChange k = true) (version : Byte) (time : Word16) :
    u.take ⟨.updated k version, time⟩ = u.coalesce k version time := if_pos h

theorem take_updated_fresh (h : u.holdsChange k = false) (version : Byte) (time : Word16) :
    u.take ⟨.updated k version, time⟩ = u.append ⟨.updated k version, time⟩ := if_neg (Bool.eq_false_iff.1 h)

theorem take_refreshed_held (h : u.holdsChange k = true) (version : Byte) (time : Word16) :
    u.take ⟨.refreshed k version, time⟩ = u := if_pos h

theorem take_refreshed_fresh (h : u.holdsChange k = false) (version : Byte) (time : Word16) :
    u.take ⟨.refreshed k version, time⟩ = u.append ⟨.refreshed k version, time⟩ := if_neg (Bool.eq_false_iff.1 h)

/-- Whether the head is a change record of a key. -/
theorem head_isChangeOf_iff (l : List NoticeRecord) (k : Key) :
    (l.head?.map (NoticeRecord.isChangeOf k)).getD false = true ↔
      l.head?.bind NoticeRecord.changeKey? = some k := by
  cases l with
  | nil => exact iff_of_false Bool.false_ne_true nofun
  | cons r l => exact NoticeRecord.isChangeOf_iff k r

/-- A coalesced offer, by the keys of the records (R103, R110). -/
theorem coalesce_eq (u : NoticeUnit) (k : Key) (version : Byte) (time : Word16) :
    u.coalesce k version time =
      { u with
        queue := u.queue.map (fun r => if r.changeKey? = some k then ⟨.updated k version, time⟩ else r)
        mark :=
          if u.mark ≠ .none ∧ u.queue.head?.bind NoticeRecord.changeKey? = some k then .changed else u.mark } := by
  have hmark : (u.mark != .none && (u.queue.head?.map (NoticeRecord.isChangeOf k)).getD false) = true ↔
      u.mark ≠ .none ∧ u.queue.head?.bind NoticeRecord.changeKey? = some k := by
    rw [Bool.and_eq_true, bne_iff_ne, head_isChangeOf_iff]
  unfold NoticeUnit.coalesce
  simp only [NoticeRecord.isChangeOf_iff, hmark]

/-- The head leaves, and LOST_NOTICES takes the place that an overflow has left free behind it (R107, R109). -/
theorem removeHead_eq (u : NoticeUnit) (time : Word16) :
    u.removeHead time =
      { u with
        queue := u.queue.tail ++ (if u.overflow then [⟨.lostNotices u.lostCount, time⟩] else [])
        overflow := false
        lostCount := if u.overflow then 0 else u.lostCount } := by
  obtain ⟨windows, queue, overflow, lostCount, mark⟩ := u
  cases overflow with
  | true => rfl
  | false => simp [NoticeUnit.removeHead]

end NoticeUnit

theorem lostRise_eq (c : Byte) : lostRise c = if c.toNat < 255 then c + 1 else 255 := by
  have hmax : c = 255 ↔ ¬c.toNat < 255 := by bv_omega
  unfold lostRise
  by_cases h : c.toNat < 255
  · rw [if_pos h, if_neg fun hc => hmax.1 hc h]
  · rw [if_neg h, if_pos (hmax.2 h), hmax.2 h]

/-! ### Modes -/

theorem passes_updated {windows : Vector Window 8} {k : Key} (version : Byte) :
    passes windows (.updated k version) = true ↔
      keyMode windows k = some .onChange ∨ keyMode windows k = some .onEvery := by
  simp [passes]

theorem passes_refreshed {windows : Vector Window 8} {k : Key} (version : Byte) :
    passes windows (.refreshed k version) = true ↔ keyMode windows k = some .onEvery := by
  simp [passes]

theorem keyMode_keeps_iff {windows : Vector Window 8} {k : Key} :
    (keyMode windows k = none ∨ keyMode windows k = some .quiet) ↔
      ¬(keyMode windows k = some .onChange ∨ keyMode windows k = some .onEvery) := by
  cases keyMode windows k with
  | none => simp
  | some mode => cases mode <;> simp

end Sys2Proof.Machine

open Sys2Proof Sys2Proof.Machine

/-- Settles O16, by what TAKE_NOTICE finds at the head of the queue. -/
theorem takeNoticeReturnsTheHead : Obligations.TakeNoticeReturnsTheHead := by
  intro s hs
  rw [exec_takeNotice hs]
  refine ⟨fun h q hq => ?_, fun hnil => ?_⟩
  · rw [takeNotice_head hq, NoticeRecord.bytes_eq]
    obtain ⟨body, time⟩ := h
    cases body with
    | peer kind n => cases kind <;> rfl
    | state n entered =>
      cases entered with
      | listening cause => cases cause <;> rfl
      | _ => rfl
    | _ => rfl
  · rw [takeNotice_empty hnil]
    rfl

/-- Settles O23: the mode lets an offer pass or drops it, and one that passes is coalesced, dropped or appended. -/
theorem offersCoalesceAppendOrAreLost : Obligations.OffersCoalesceAppendOrAreLost := by
  refine ⟨fun u k version time => ⟨fun hmode => ?_, fun hmode => ?_⟩,
    fun u k version time => ⟨fun hmode => ?_, fun hmode => ?_, fun hmode => ?_, rfl, fun _ _ => rfl, fun _ _ => rfl⟩,
    fun u r => ⟨fun hroom => u.append_room r hroom, fun hfull => ?_⟩⟩
  · rw [NoticeUnit.offer_of_passes ((passes_updated version).2 hmode), ← NoticeUnit.coalesce_eq]
    exact ⟨fun hheld => NoticeUnit.take_updated_held (NoticeUnit.holdsChange_iff.2 hheld) version time,
      fun hfresh => NoticeUnit.take_updated_fresh (NoticeUnit.holdsChange_eq_false_iff.2 hfresh) version time⟩
  · rw [NoticeUnit.offer_of_passes ((passes_refreshed version).2 hmode)]
    exact ⟨fun hheld => NoticeUnit.take_refreshed_held (NoticeUnit.holdsChange_iff.2 hheld) version time,
      fun hfresh => NoticeUnit.take_refreshed_fresh (NoticeUnit.holdsChange_eq_false_iff.2 hfresh) version time⟩
  · have hdropped : passes u.windows (.updated k version) = false :=
      Bool.eq_false_iff.2 fun hp => keyMode_keeps_iff.1 hmode ((passes_updated version).1 hp)
    exact ⟨NoticeUnit.offer_of_not_passes hdropped, NoticeUnit.offer_of_not_passes hdropped⟩
  · exact NoticeUnit.offer_of_not_passes (Bool.eq_false_iff.2 fun hp => hmode ((passes_refreshed version).1 hp))
  · exact NoticeUnit.offer_of_passes ((passes_updated version).2 hmode)
  · rw [u.append_full r (by omega), lostRise_eq]

/-- Settles O24, by the mark and the overflow marker. -/
theorem noticeRemovalEndsTheTake : Obligations.NoticeRemovalEndsTheTake := by
  intro s h q r p hq hr hp
  have hport : s.port.clockedOut = p := by
    have hbytes : (s.port.reply.map Reply.bytes).getD [] = r.bytes := by
      rw [hr]
      rfl
    rw [hp, Port.clockedOut, Port.responseLength, hbytes]
  have hexec : s.notices.mark ≠ .none →
      exec .noticeRemoval s = .next ((s.setNotices (s.notices.finishTake s.control.clock)).setPort p) := fun hm =>
    congrArg Host.Outcome.next ((if_neg hm).trans (by rw [hport]))
  refine ⟨fun hm => ?_, fun hm => ?_⟩
  · rw [hexec (by rw [hm]; nofun), NoticeUnit.finishTake, hm, NoticeUnit.removeHead_eq, hq, List.tail_cons]
    rfl
  · rw [hexec (by rw [hm]; nofun), NoticeUnit.finishTake, hm]
    rfl

/-- Settles O6, by the meanings of the two edges of LSEL. -/
theorem transactionOpensAndCloses : Obligations.TransactionOpensAndCloses :=
  fun _ => ⟨fun hclosed => congrArg Host.Outcome.next (if_pos hclosed), rfl⟩

end

section
/-! PROOFS. The reads of status and tallies: the fields of READ_STATUS byte by byte (O14). -/

namespace Sys2Proof.Machine

open Sys2Proof

theorem StationState.stateByte_eq (st : StationState) :
    st.stateByte = (match st with | .configuring => 0 | .joining => 1 | .inService => 2 | .listening _ => 3) := by
  cases st <;> rfl

theorem StationState.causeByte_eq (st : StationState) :
    st.causeByte =
      (match st with
       | .listening .command => 1 | .listening .lineTrouble => 2 | .listening .duplicate => 3 | _ => 0) := by
  cases st with
  | listening cause => cases cause <;> rfl
  | configuring | joining | inService => rfl

/-- The fault flag byte as a sum: each flag that is set adds the weight of its place (file 11). -/
theorem FaultFlags.toByte_eq (f : FaultFlags) :
    f.toByte =
      (if f.duplicate then 1 else 0) + (if f.lineStuck then 2 else 0) + (if f.lineTrouble then 4 else 0) +
        (if f.tableFull then 8 else 0) + (if f.peerOverflow then 16 else 0) := by
  have hweights : ∀ duplicate lineStuck lineTrouble tableFull peerOverflow : Bool,
      FaultFlags.toByte ⟨duplicate, lineStuck, lineTrouble, tableFull, peerOverflow⟩ =
        (if duplicate then 1 else 0) + (if lineStuck then 2 else 0) + (if lineTrouble then 4 else 0) +
          (if tableFull then 8 else 0) + (if peerOverflow then 16 else 0) := by
    decide
  exact hweights _ _ _ _ _

/-- The two bytes of a count, most significant first (file 00, Byte order). -/
theorem word16Bytes_ofNat (n : Nat) :
    word16Bytes (BitVec.ofNat 16 n) = [BitVec.ofNat 8 (n / 256), BitVec.ofNat 8 n] := by
  have hhigh : (BitVec.ofNat 16 n).extractLsb' 8 8 = BitVec.ofNat 8 (n / 256) := by
    apply BitVec.eq_of_toNat_eq
    simp only [BitVec.extractLsb'_toNat, BitVec.toNat_ofNat, Nat.shiftRight_eq_div_pow]
    omega
  have hlow : (BitVec.ofNat 16 n).extractLsb' 0 8 = BitVec.ofNat 8 n := by
    apply BitVec.eq_of_toNat_eq
    simp only [BitVec.extractLsb'_toNat, BitVec.toNat_ofNat, Nat.shiftRight_zero]
    omega
  rw [word16Bytes, hhigh, hlow]

theorem stationByte_eq (n : Option Station) :
    (n.getD 0).setWidth 8 = (match n with | some n => n.setWidth 8 | none => 0) := by
  cases n <;> rfl

end Sys2Proof.Machine

open Sys2Proof Sys2Proof.Machine

/-- Settles O14: both reads are open in every station state and have no argument bytes. -/
theorem statusAndTalliesAreRead : Obligations.StatusAndTalliesAreRead := by
  refine ⟨fun s hs => ?_, fun s hs => ?_⟩
  · have hexec : exec (.readStatus (portBits [0x01])) s = .next (State.answer 0x01 [] (⟨.ok, s.statusBytes⟩, s)) :=
      exec_fixed .readStatus [] hs rfl (fun _ => rfl)
    rw [hexec, State.statusBytes, StationState.stateByte_eq, StationState.causeByte_eq, FaultFlags.toByte_eq,
      word16Bytes_ofNat, stationByte_eq]
    rfl
  · exact exec_fixed .readTallies [] hs rfl (fun _ => rfl)

end

section
/-! PROOFS. The frame unit and the line: what cells do to the assembly buffer, the cut of a frame under assembly, and the
judgement at FRAME_END (O25, O26, O29). -/

namespace Sys2Proof.Machine

open Sys2Proof

/-! ### Cells -/

/-- The lead of a frame under assembly is the number whose place 15 - k holds the k-th bit received (R193). -/
theorem eq_leadOfBits {bits : List Bool} {lead : Word16} (hfull : 16 ≤ bits.length)
    (hlead : ∀ k < 16, lead.getLsbD (15 - k) = (bits[k]?).getD false) : lead = leadOfBits bits := by
  have htaken : (bits.take 16).length = 16 := List.length_take_of_le hfull
  apply BitVec.eq_of_getLsbD_eq
  intro i hi
  rw [leadOfBits, getLsbD_wordOfBits 16 _ i hi, List.getElem?_reverse (by omega), htaken,
    List.getElem?_take_of_lt (by omega), ← hlead (16 - 1 - i) (by omega)]
  congr 1
  omega

/-- Bits stop before a frame's last check bit while their lead is not complete, or short of the length it gives (R119). -/
theorem unfinished_iff {bits : List Bool} {lead : Word16}
    (hlead : ∀ k < 16, lead.getLsbD (15 - k) = (bits[k]?).getD false) :
    unfinished bits = true ↔ bits.length < 16 ∨ bits.length < 32 + 8 * (lead.extractLsb' 0 5).toNat := by
  unfold unfinished frameBits?
  by_cases hshort : bits.length < 16
  · simp [hshort]
  · rw [eq_leadOfBits (Nat.le_of_not_lt hshort) hlead]
    simp [hshort, leadLength]

theorem State.takeCells_unfinished {s : State} {a : Assembly} {cells : List Level} (ha : s.frame.assembly = some a)
    (hpart : unfinished (a.bits ++ cells.map sampledBit) = true) :
    s.takeCells cells = s.setAssembly (some (s.cellsTaken a cells)) := by
  unfold State.takeCells
  rw [ha]
  refine if_pos ?_
  rw [State.cellsTaken_eq]
  exact hpart

theorem State.takeCells_complete {s : State} {a : Assembly} {cells : List Level} (ha : s.frame.assembly = some a)
    (hwhole : unfinished (a.bits ++ cells.map sampledBit) ≠ true) : s.takeCells cells = s := by
  unfold State.takeCells
  rw [ha]
  refine if_neg ?_
  rw [State.cellsTaken_eq]
  exact hwhole

/-- The origin after one more cell, by the three cases in which the cell is still the station's own (log 17). -/
theorem Origin.next_eq (drive : Drive) (o : Origin) (c : Level) :
    o.next drive c =
      (match o, drive, c with
       | .driven, .sending _, _ => .driven
       | .driven, .breaking, .low => .ended
       | .driven, .idle, .high => .ended
       | _, _, _ => .foreign) := by
  cases o with
  | driven => cases drive <;> cases c <;> rfl
  | ended | foreign => rfl

/-! ### The line -/

/-- A tally that rises, by its value (R129). -/
theorem Tally.rise_eq_of_toNat (t : Word16) : Tally.rise t = if t.toNat < 65535 then t + 1 else t := by
  have hmax : t = 0xFFFF ↔ ¬t.toNat < 65535 := by bv_omega
  unfold Tally.rise
  rw [if_congr hmax rfl rfl, ite_not]

theorem Drive.freed_eq (d : Drive) : d.freed = (match d with | .sending frame => .unheard frame | d => d) := by
  cases d <;> rfl

/-- Whose frame a falling edge begins (log 17, 32). -/
theorem Drive.firstOrigin_eq (d : Drive) :
    (if d.isHeard then Origin.driven else .foreign) = (match d with | .sending _ => .driven | _ => .foreign) := by
  cases d <;> rfl

theorem Assembly.isOwn_iff (a : Assembly) : a.isOwn = true ↔ ¬(a.own = false ∧ a.origin = .foreign) := by
  unfold Assembly.isOwn
  cases a.own <;> simp

/-- The frame unit once a frame under assembly is cut: CUT rises unless it is the station's own (R120, R124). -/
def FrameUnit.afterCut (x : FrameUnit) : FrameUnit :=
  match x.assembly with
  | none => x
  | some a => { x with
      assembly := none
      cut := if a.own = false ∧ a.origin = .foreign ∧ x.cut.toNat < 65535 then x.cut + 1 else x.cut }

theorem State.cutAssembly_eq (s : State) : s.cutAssembly = s.setFrame s.frame.afterCut := by
  unfold State.cutAssembly FrameUnit.afterCut
  cases s.frame.assembly with
  | none => rfl
  | some a =>
    have hcut : (if a.isOwn then s.frame.cut else Tally.rise s.frame.cut) =
        if a.own = false ∧ a.origin = .foreign ∧ s.frame.cut.toNat < 65535 then s.frame.cut + 1 else s.frame.cut := by
      rw [if_congr a.isOwn_iff rfl rfl, ite_not, Tally.rise_eq_of_toNat, ← ite_and, if_congr and_assoc rfl rfl]
    dsimp only
    rw [hcut]

/-- The line becomes free, every block at once (R137, R142, R143). -/
theorem State.freeLine_eq (s : State) :
    s.freeLine =
      { s with
        line := { s.line with condition := .idle, drive := s.line.drive.freed, early := .none }
        frame := s.frame.afterCut } := by
  unfold State.freeLine
  rw [State.cutAssembly_eq]
  rfl

/-! ### The judgement of a frame -/

/-- The entry to LISTENING from LISTENING for another cause: station control alone changes, and announces it (R173). -/
theorem State.duplicateDetected_listening {s : State} {n : Station} (hn : s.control.station = some n)
    (hstate : s.control.state = .listening .command ∨ s.control.state = .listening .lineTrouble) :
    s.duplicateDetected =
      { s with
        control := { s.control with
          faults := { s.control.faults with duplicate := true }
          state := .listening .duplicate
          lineTroubleCount := 0 }
        notices := s.notices.offer ⟨.state n (.listening .duplicate), s.control.clock⟩ } := by
  rw [← State.ownNumber_of_station hn]
  unfold State.duplicateDetected
  rcases hstate with hstate | hstate <;> simp only [State.setFaults_state, hstate] <;> rfl

theorem State.duplicateDetected_again {s : State} (hstate : s.control.state = .listening .duplicate) :
    s.duplicateDetected = s.setFaults { s.control.faults with duplicate := true } := by
  unfold State.duplicateDetected
  simp only [State.setFaults_state, hstate]

/-- A duplicate detection in JOINING or IN_SERVICE enters LISTENING, every block at once (R171, R173). -/
theorem State.duplicateDetected_active {s : State} {n : Station} (hn : s.control.station = some n)
    (hstate : s.control.state = .joining ∨ s.control.state = .inService) :
    s.duplicateDetected =
      { s with
        control := { s.control with
          faults := { s.control.faults with duplicate := true }
          state := .listening .duplicate
          withdrawPending := false
          lineTroubleCount := 0
          joinTimer := s.control.joinTimer.hold
          helloHold := .stopped }
        publication := s.publication.hold
        peers := s.peers.mapWaits Timer.hold
        arbiter := { s.arbiter with failures := 0 }
        notices := s.notices.offer ⟨.state n (.listening .duplicate), s.control.clock⟩ } := by
  rw [← State.ownNumber_of_station hn]
  unfold State.duplicateDetected
  rcases hstate with hstate | hstate <;> simp only [State.setFaults_state, hstate] <;> rfl

theorem State.atExit_iff (s : State) :
    s.atExit = true ↔ s.control.state = .listening .lineTrouble ∧ 31 ≤ s.control.lineTroubleCount := by
  unfold State.atExit
  rw [Bool.and_eq_true, beq_iff_eq, decide_eq_true_iff]
  exact and_congr_right fun _ => Nat.succ_le_succ_iff

theorem State.dispatchGood_inOrder {s : State} (f : Frame)
    (h : ¬(s.control.state = .listening .lineTrouble ∧ 31 ≤ s.control.lineTroubleCount)) :
    s.dispatchGood f = ((s.peerEvent f).controlEvent f).publicationEvent f := by
  unfold State.dispatchGood
  rw [if_neg fun hexit => h (s.atExit_iff.1 hexit)]

/-- At the exit from LISTENING(LINE_TROUBLE) the first two blocks stand in either order (R127; log 13). -/
theorem State.dispatchGood_atExit {s : State} (f : Frame) (hstate : s.control.state = .listening .lineTrouble)
    (hcount : 31 ≤ s.control.lineTroubleCount) :
    s.dispatchGood f = ((s.bumpFree.peerEvent f).controlEvent f).publicationEvent f ∨
      s.dispatchGood f = ((s.bumpFree.controlEvent f).peerEvent f).publicationEvent f := by
  unfold State.dispatchGood
  rw [if_pos (s.atExit_iff.2 ⟨hstate, hcount⟩)]
  cases Config.controlFirst s.freeCount with
  | true => exact .inr rfl
  | false => exact .inl rfl

/-- FRAME_END of another station's frame that is valid: counted as good, then a duplicate or dispatched (R125, R126). -/
theorem State.judgeFrame_valid {s : State} {w : WireFrame} {f : Frame} (hcheck : checkPasses w = true)
    (hvalid : validate w = some f) :
    s.finishAssembly.judgeFrame w =
      if s.control.station = some f.sender then s.counted.duplicateDetected else s.counted.dispatchGood f := by
  have hjudged : s.finishAssembly.judgeFrame w =
      if s.counted.isOwn f.sender then s.counted.duplicateDetected else s.counted.dispatchGood f := by
    unfold State.judgeFrame
    rw [if_pos hcheck, hvalid]
    rfl
  rw [hjudged]
  exact if_congr (s.counted.isOwn_iff f.sender) rfl rfl

end Sys2Proof.Machine

open Sys2Proof Sys2Proof.Machine

/-- Settles O26, by whether the bits stop before the last check bit that their lead gives. -/
theorem cellsFillTheAssemblyBuffer : Obligations.CellsFillTheAssemblyBuffer := by
  intro s cells next hnext
  have horigin : Origin.next s.line.drive = next :=
    funext₂ fun o c => (Origin.next_eq s.line.drive o c).trans (hnext o c).symm
  refine ⟨fun c => by cases c <;> rfl, fun hnone => State.takeCells_none hnone cells,
    fun a bits lead ha hbits hlead => ⟨fun hpart => ?_, fun hfull hwhole => ?_⟩⟩
  · rw [← unfinished_iff hlead, hbits] at hpart
    have hlength : bits.length = a.bits.length + cells.length := by
      rw [hbits, List.length_append, List.length_map]
    rw [State.takeCells_unfinished ha hpart, State.cellsTaken_eq, horigin, ← hbits, ← hlength]
    rfl
  · refine State.takeCells_complete ha ?_
    rw [← hbits, Ne, unfinished_iff hlead]
    omega

/-- Settles O25, by the line condition at each event. -/
theorem lineConditionFollowsTheLine : Obligations.LineConditionFollowsTheLine := by
  intro s u cells free cut hu hfree hcut
  have hfreed : s.line.drive.freed = free := s.line.drive.freed_eq.trans hfree.symm
  have hafter : FrameUnit.afterCut = cut := funext fun x => (hcut x).symm
  have hcells : u.line = s.line := by
    rw [hu, State.takeCells_line]
  refine ⟨fun hidle => ⟨fun hconf => ?_, fun hconf => ?_⟩, fun hheld => ?_, fun hbusy => ?_, fun hbreak => ⟨?_, ?_⟩,
    fun hstuck => ?_, fun hwaiting => ?_⟩
  · exact congrArg Host.Outcome.next ((if_pos hidle).trans (if_pos hconf))
  · refine congrArg Host.Outcome.next ((if_pos hidle).trans ((if_neg hconf).trans ?_))
    show ((s.setCondition .busy).setAssembly (some ⟨[], false, if s.line.drive.isHeard then .driven else .foreign⟩)).takeCells
      cells = _
    rw [Drive.firstOrigin_eq]
    rfl
  · refine congrArg Host.Outcome.next ((if_pos hheld).trans ?_)
    rw [← hu, State.freeLine_eq, hcells, hfreed, hafter]
  · refine congrArg Host.Outcome.next ((if_pos hbusy).trans ?_)
    rw [← hu, State.cutAssembly_eq, hafter, ← hcells]
    rfl
  · exact congrArg Host.Outcome.next (if_pos hbreak)
  · exact congrArg Host.Outcome.next (if_pos hbreak)
  · refine congrArg Host.Outcome.next ((if_pos hstuck).trans ?_)
    rw [State.freeLine_eq, hfreed, hafter]
  · refine ⟨_, congrArg Host.Outcome.next (if_pos hwaiting), ?_, congrArg Host.Outcome.next (if_neg nofun)⟩
    rw [Tally.rise_eq_of_toNat]
    rfl

/-- Settles O29, by the mark, the check, the validation and the sender of the frame. -/
theorem frameEndJudgesOneFrame : Obligations.FrameEndJudgesOneFrame := by
  intro w cells s ended a mark ha hw he hmark hended
  have hexec : exec (.frameEnd cells) s =
      .next (if mark then s.finishAssembly else s.finishAssembly.judgeFrame w) := by
    rw [hmark, ← State.cellsTaken_own_wireBits hw]
    exact execFrameEnd_finished ha hw he
  subst hended
  rw [hexec]
  refine ⟨fun hown => congrArg _ (if_pos hown), fun hother => ?_⟩
  rw [if_neg (Bool.eq_false_iff.1 hother)]
  refine ⟨fun hfails => ?_, fun hpasses hnone => ?_, fun f counted good hpasses hvalid hcounted hgood => ?_⟩
  · unfold State.judgeFrame
    rw [if_neg (Bool.eq_false_iff.1 hfails), ← Tally.rise_eq]
    rfl
  · unfold State.judgeFrame
    rw [if_pos hpasses, hnone, ← Tally.rise_eq]
    rfl
  · have hsame : counted = s.counted := by
      rw [hcounted, ← Tally.rise_eq]
      rfl
    rw [State.judgeFrame_valid hpasses hvalid]
    subst hgood hsame
    refine ⟨fun hsender => ⟨fun hduplicate => ?_, fun hlistening => ?_, fun hactive => ?_⟩,
      fun hsender => ⟨fun hinside => ?_, fun hstate hcount => ⟨_, rfl, ?_⟩⟩⟩
    · rw [if_pos hsender, State.duplicateDetected_again (s := s.counted) hduplicate]
      rfl
    · rw [if_pos hsender, State.duplicateDetected_listening (s := s.counted) hsender hlistening]
      rfl
    · rw [if_pos hsender, State.duplicateDetected_active (s := s.counted) hsender hactive]
      rfl
    · rw [if_neg hsender, State.dispatchGood_inOrder (s := s.counted) f hinside]
    · rw [if_neg hsender]
      exact (State.dispatchGood_atExit (s := s.counted) f hstate hcount).imp (congrArg _) (congrArg _)

end

section
/-! PROOFS. Frames as bytes and as fields: each part of a frame that is built is read back, and only what a station builds
is read (O28). -/

namespace Sys2Proof.Machine

open Sys2Proof

/-! ### Codes -/

theorem FrameKind.ofCode_eq_some_iff (c : BitVec 3) (k : FrameKind) : FrameKind.ofCode c = some k ↔ c = k.code := by
  revert c
  cases k <;> decide

theorem Size.ofCode_code (z : Size) : Size.ofCode z.code = z := by cases z <;> rfl

theorem Size.code_ofCode : ∀ c : BitVec 2, (Size.ofCode c).code = c := by decide

/-- An urgency is one of the kind's, and gives the ALARM mark, exactly when it is the one that the frame is sent with
(R116). -/
theorem urgencyFits_iff (u : BitVec 2) (f : Frame) :
    (urgencyFits u f.body.kind = true ∧ (u == 0) = f.alarm) ↔
      (u = f.urgency.code ∧ (f.alarm = true → f.body.kind = .update)) := by
  unfold Frame.urgency
  generalize f.body.kind = kind, f.alarm = alarm
  revert u
  cases kind <;> cases alarm <;> decide

/-- A byte is the flags byte of an ASK exactly when its unused bits are 0 (file 11, Bodies). -/
theorem askFlags_iff (flags : Byte) (wanted : Bool) :
    (flags.extractLsb' 1 7 = 0 ∧ flags.getLsbD 0 = wanted) ↔ flags = askFlags wanted := by
  revert flags
  cases wanted <;> decide

theorem namesStation_iff (n : Station) : namesStation n = true ↔ 1 ≤ n.toNat ∧ n.toNat ≤ 62 := by
  unfold namesStation
  rw [Bool.and_eq_true, bne_iff_ne, bne_iff_ne]
  bv_omega

theorem targetOf_eq_some_iff (b : Byte) (n : Station) :
    targetOf b = some n ↔ b = n.setWidth 8 ∧ namesStation n = true := by
  rw [namesStation_iff]
  unfold targetOf
  rw [Option.ite_none_right_eq_some, Bool.and_eq_true, decide_eq_true_iff, decide_eq_true_iff, Option.some_inj]
  bv_omega

/-! ### Index sets -/

theorem IndexSet.toBytes_indexSetOfBytes {bytes : List Byte} (h : bytes.length = 8) :
    IndexSet.toBytes (indexSetOfBytes bytes) = bytes := by
  match bytes, h with
  | [a, b, c, d, e, f, g, h], _ =>
    simp (disch := decide) only [IndexSet.toBytes, indexSetOfBytes, BitVec.extractLsb'_append_eq_of_le,
      BitVec.extractLsb'_append_eq_of_add_le, Nat.reduceSub, BitVec.extractLsb'_eq_self]

theorem IndexSet.indexSetOfBytes_toBytes (s : IndexSet) : indexSetOfBytes (IndexSet.toBytes s) = s := by
  unfold IndexSet.toBytes indexSetOfBytes
  simp (disch := decide) only [BitVec.extractLsb'_append_extractLsb'_eq_extractLsb']
  exact BitVec.extractLsb'_eq_self

/-! ### Items -/

theorem Item.head_index (i : Item) : i.head.extractLsb' 2 6 = i.index := BitVec.extractLsb'_append_eq_left

theorem Item.head_size (i : Item) : Size.ofCode (i.head.extractLsb' 0 2) = i.size := by
  have hcode : i.head.extractLsb' 0 2 = i.size.code := BitVec.extractLsb'_append_eq_right
  rw [hcode, Size.ofCode_code]

/-- A head byte is that of the item which is read from it. -/
theorem Item.head_of_byte (b version : Byte) (value : List Byte) :
    Item.head ⟨b.extractLsb' 2 6, Size.ofCode (b.extractLsb' 0 2), version, value⟩ = b := by
  unfold Item.head
  dsimp only
  rw [Size.code_ofCode]
  exact (BitVec.extractLsb'_append_extractLsb'_eq_extractLsb' (show 2 = 0 + 2 from rfl)).trans BitVec.extractLsb'_eq_self

/-- What is read as items are the bytes of those items. -/
theorem parseItems_bytes {n : Nat} {bytes : List Byte} {items : List Item} (h : parseItems n bytes = some items) :
    bytes = items.flatMap Item.toBytes := by
  induction n generalizing bytes items with
  | zero =>
    cases bytes with
    | nil => cases h; rfl
    | cons head rest => cases h
  | succ n ih =>
    match bytes with
    | [] => cases h; rfl
    | [head] => cases h
    | head :: version :: rest =>
      rw [parseItems] at h
      split at h
      · cases h
      · split at h
        · cases h
        next tail htail =>
          cases h
          rw [List.flatMap_cons, ← ih htail, Item.toBytes, Item.head_of_byte]
          simp

/-- Items whose values have their size are read from their bytes. -/
theorem parseItems_flatMap {items : List Item} (hvalues : ∀ i ∈ items, i.value.length = i.size.bytes) {n : Nat}
    (hn : (items.flatMap Item.toBytes).length ≤ n) : parseItems n (items.flatMap Item.toBytes) = some items := by
  induction items generalizing n with
  | nil => cases n <;> rfl
  | cons i items ih =>
    obtain ⟨hi, hrest⟩ := List.forall_mem_cons.1 hvalues
    have hbytes : (i :: items).flatMap Item.toBytes =
        i.head :: i.version :: (i.value ++ items.flatMap Item.toBytes) := rfl
    rw [hbytes] at hn ⊢
    cases n with
    | zero => simp at hn
    | succ n =>
      simp only [List.length_cons, List.length_append] at hn
      rw [parseItems]
      simp only [Item.head_size, Item.head_index]
      rw [if_neg (by rw [List.length_append]; omega), ← hi, List.drop_left, List.take_left, ih hrest (by omega)]

theorem itemsOf_eq_some_iff (bytes : List Byte) (items : List Item) :
    itemsOf bytes = some items ↔
      bytes = items.flatMap Item.toBytes ∧ items ≠ [] ∧ (items.map Item.index).Nodup ∧
        ∀ i ∈ items, i.value.length = i.size.bytes := by
  constructor
  · intro h
    have hvalues := itemsOf_values h
    unfold itemsOf at h
    split at h
    · cases h
    next parsed hparsed =>
      split at h
      · cases h
      next hsome =>
        split at h
        next honce =>
          cases h
          exact ⟨parseItems_bytes hparsed, fun hnil => hsome (List.isEmpty_iff.2 hnil), honce, hvalues⟩
        · cases h
  · rintro ⟨rfl, hsome, honce, hvalues⟩
    unfold itemsOf
    rw [parseItems_flatMap hvalues (Nat.le_refl _)]
    exact (if_neg fun hnil => hsome (List.isEmpty_iff.1 hnil)).trans (if_pos honce)

/-! ### Bodies -/

/-- The part of `Frame.sendable` that speaks of the body alone (R116 to R118). -/
structure FrameBody.Sendable (b : FrameBody) : Prop where
  target : ∀ n ∈ b.target, namesStation n = true
  items : b.kind = .update ∨ b.kind = .resend → b.items ≠ []
  indexes : (b.items.map Item.index).Nodup
  values : ∀ i ∈ b.items, i.value.length = i.size.bytes
  period : ∀ p ∈ b.period, periodInRange p = true

theorem Frame.sendable_iff (f : Frame) :
    f.sendable ↔
      namesStation f.sender = true ∧ (f.alarm = true → f.body.kind = .update) ∧ f.body.Sendable ∧
        f.bodyBytes.length ≤ 31 :=
  ⟨fun ⟨hsender, htarget, halarm, hitems, hindexes, hvalues, hperiod, hlength⟩ =>
      ⟨hsender, halarm, ⟨htarget, hitems, hindexes, hvalues, hperiod⟩, hlength⟩,
    fun ⟨hsender, halarm, hbody, hlength⟩ =>
      ⟨hsender, hbody.target, halarm, hbody.items, hbody.indexes, hbody.values, hbody.period, hlength⟩⟩

theorem parseBody_bytes {kind : FrameKind} {bytes : List Byte} {body : FrameBody}
    (h : parseBody kind bytes = some body) : body.kind = kind ∧ bytes = body.toBytes ∧ body.Sendable := by
  unfold parseBody at h
  split at h
  next sequence rest =>
    obtain ⟨items, hitems, rfl⟩ := Option.map_eq_some_iff.1 h
    obtain ⟨rfl, hsome, honce, hvalues⟩ := (itemsOf_eq_some_iff _ _).1 hitems
    exact ⟨rfl, rfl, ⟨nofun, fun _ => hsome, honce, hvalues, nofun⟩⟩
  · cases h
  next period =>
    obtain ⟨hperiod, hbody⟩ := Option.ite_none_right_eq_some.1 h
    cases hbody
    exact ⟨rfl, rfl, ⟨nofun, nofun, .nil, nofun, fun p hp => by cases hp; exact hperiod⟩⟩
  · cases h
  next target flags believed rest =>
    obtain ⟨⟨hlength, hflags⟩, hbody⟩ := Option.ite_none_right_eq_some.1 h
    obtain ⟨n, hn, rfl⟩ := Option.map_eq_some_iff.1 hbody
    obtain ⟨rfl, hnames⟩ := (targetOf_eq_some_iff _ _).1 hn
    refine ⟨rfl, ?_, ⟨fun m hm => by cases hm; exact hnames, nofun, .nil, nofun, nofun⟩⟩
    rw [FrameBody.toBytes, ← (askFlags_iff flags _).1 ⟨hflags, rfl⟩, IndexSet.toBytes_indexSetOfBytes hlength]
  · cases h
  next following period rest =>
    obtain ⟨⟨hlength, hperiod⟩, hbody⟩ := Option.ite_none_right_eq_some.1 h
    cases hbody
    refine ⟨rfl, ?_, ⟨nofun, nofun, .nil, nofun, fun p hp => by cases hp; exact hperiod⟩⟩
    rw [FrameBody.toBytes, IndexSet.toBytes_indexSetOfBytes hlength]
  · cases h
  next rest =>
    obtain ⟨items, hitems, rfl⟩ := Option.map_eq_some_iff.1 h
    obtain ⟨rfl, hsome, honce, hvalues⟩ := (itemsOf_eq_some_iff _ _).1 hitems
    exact ⟨rfl, rfl, ⟨nofun, fun _ => hsome, honce, hvalues, nofun⟩⟩

theorem parseBody_toBytes {body : FrameBody} (h : body.Sendable) : parseBody body.kind body.toBytes = some body := by
  cases body with
  | update sequence items =>
    have hitems := (itemsOf_eq_some_iff _ _).2 ⟨rfl, h.items (.inl rfl), h.indexes, h.values⟩
    exact congrArg (Option.map (FrameBody.update sequence)) hitems
  | hello period => exact if_pos (h.period period rfl)
  | ask target wanted believed asked =>
    obtain ⟨hunused, hwanted⟩ := (askFlags_iff _ wanted).2 rfl
    have htarget := (targetOf_eq_some_iff _ _).2 ⟨rfl, h.target target rfl⟩
    refine (if_pos ⟨rfl, hunused⟩).trans ?_
    rw [htarget, hwanted, IndexSet.indexSetOfBytes_toBytes]
    rfl
  | beacon following period published =>
    refine (if_pos ⟨rfl, h.period period rfl⟩).trans ?_
    rw [IndexSet.indexSetOfBytes_toBytes]
  | resend items =>
    have hitems := (itemsOf_eq_some_iff _ _).2 ⟨rfl, h.items (.inr rfl), h.indexes, h.values⟩
    exact congrArg (Option.map FrameBody.resend) hitems

/-- A body is read exactly when it is the body of that kind as a station sends it (R116 to R118, R122, R123). -/
theorem parseBody_eq_some_iff (kind : FrameKind) (bytes : List Byte) (body : FrameBody) :
    parseBody kind bytes = some body ↔ body.kind = kind ∧ bytes = body.toBytes ∧ body.Sendable :=
  ⟨parseBody_bytes, by rintro ⟨rfl, rfl, h⟩; exact parseBody_toBytes h⟩

/-! ### Leads -/

/-- A lead is put together again from its four fields (file 11, Lead). -/
theorem lead_append_fields (lead : Word16) :
    leadUrgency lead ++ leadKind lead ++ leadSender lead ++ lead.extractLsb' 0 5 = lead := by
  unfold leadUrgency leadKind leadSender
  simp (disch := decide) only [BitVec.extractLsb'_append_extractLsb'_eq_extractLsb']
  exact BitVec.extractLsb'_eq_self

theorem Frame.leadUrgency_lead (f : Frame) : leadUrgency f.lead = f.urgency.code := by
  simp (disch := decide) only [leadUrgency, Frame.lead, BitVec.extractLsb'_append_eq_of_le, Nat.reduceSub,
    BitVec.extractLsb'_eq_self]

theorem Frame.leadKind_lead (f : Frame) : leadKind f.lead = f.body.kind.code := by
  simp (disch := decide) only [leadKind, Frame.lead, BitVec.extractLsb'_append_eq_of_le,
    BitVec.extractLsb'_append_eq_of_add_le, Nat.reduceSub, BitVec.extractLsb'_eq_self]

theorem Frame.leadSender_lead (f : Frame) : leadSender f.lead = f.sender := by
  simp (disch := decide) only [leadSender, Frame.lead, BitVec.extractLsb'_append_eq_of_le,
    BitVec.extractLsb'_append_eq_of_add_le, Nat.reduceSub, BitVec.extractLsb'_eq_self]

/-- The length field gives the length of a body that fits it. -/
theorem Frame.leadLength_lead {f : Frame} (h : f.bodyBytes.length ≤ 31) : leadLength f.lead = f.bodyBytes.length := by
  have hfield : f.lead.extractLsb' 0 5 = BitVec.ofNat 5 f.bodyBytes.length := BitVec.extractLsb'_append_eq_right
  rw [leadLength, hfield, BitVec.toNat_ofNat]
  omega

/-- A lead is a frame's own, with a body that fits the length field, exactly when its four fields are the frame's. -/
theorem Frame.lead_iff (lead : Word16) (f : Frame) :
    (lead = f.lead ∧ f.bodyBytes.length ≤ 31) ↔
      leadUrgency lead = f.urgency.code ∧ leadKind lead = f.body.kind.code ∧ leadSender lead = f.sender ∧
        f.bodyBytes.length = leadLength lead := by
  constructor
  · rintro ⟨rfl, hfits⟩
    exact ⟨f.leadUrgency_lead, f.leadKind_lead, f.leadSender_lead, (Frame.leadLength_lead hfits).symm⟩
  · rintro ⟨hurgency, hkind, hsender, hlength⟩
    have hfield : BitVec.ofNat 5 f.bodyBytes.length = lead.extractLsb' 0 5 := by
      rw [hlength, leadLength, BitVec.ofNat_toNat, BitVec.setWidth_eq]
    refine ⟨?_, by rw [hlength]; exact Nat.le_of_lt_succ (lead.extractLsb' 0 5).isLt⟩
    rw [Frame.lead, ← hurgency, ← hkind, ← hsender, hfield, lead_append_fields]

/-! ### Validation -/

/-- A frame that is validated has the fields and the body of the frame it is read as, which a station may send. -/
theorem validate_eq_some_iff (w : WireFrame) (f : Frame) :
    validate w = some f ↔
      leadUrgency w.lead = f.urgency.code ∧ leadKind w.lead = f.body.kind.code ∧ leadSender w.lead = f.sender ∧
        w.body = f.bodyBytes ∧ namesStation f.sender = true ∧ (f.alarm = true → f.body.kind = .update) ∧
        f.body.Sendable := by
  constructor
  · intro h
    unfold validate at h
    split at h
    next kind epoch rest hcode hbody =>
      obtain ⟨hfields, hparsed⟩ := Option.ite_none_right_eq_some.1 h
      obtain ⟨hfits, hnames⟩ := (Bool.and_eq_true _ _).mp hfields
      obtain ⟨body, hread, rfl⟩ := Option.map_eq_some_iff.1 hparsed
      obtain ⟨rfl, rfl, hsendable⟩ := (parseBody_eq_some_iff _ _ _).1 hread
      obtain ⟨hurgency, halarm⟩ := (urgencyFits_iff _ ⟨_, leadSender w.lead, epoch, body⟩).1 ⟨hfits, rfl⟩
      exact ⟨hurgency, (FrameKind.ofCode_eq_some_iff _ _).1 hcode, rfl, hbody, hnames, halarm, hsendable⟩
    · cases h
  · rintro ⟨hurgency, hkind, hsender, hbody, hnames, halarm, hsendable⟩
    obtain ⟨hfits, hmark⟩ := (urgencyFits_iff _ f).2 ⟨hurgency, halarm⟩
    have hcode := (FrameKind.ofCode_eq_some_iff _ _).2 hkind
    have hread := parseBody_toBytes hsendable
    unfold validate
    rw [hcode, hbody]
    dsimp only [Frame.bodyBytes]
    rw [hfits, hsender, hnames, hread, hmark]
    rfl

end Sys2Proof.Machine

open Sys2Proof Sys2Proof.Machine

/-- Settles O28: the length and the four fields of the lead, the body, and the check value are each the frame's own. -/
theorem framesReadBackExactlyAsBuilt : Obligations.FramesReadBackExactlyAsBuilt := by
  rintro ⟨lead, body, check⟩ f
  have hends : frameEnds ⟨lead, body, check⟩ = true ↔ body.length = leadLength lead := beq_iff_eq
  have hpasses : checkPasses ⟨lead, body, check⟩ = true ↔ check = checkValue lead body := beq_iff_eq
  rw [hends, hpasses, validate_eq_some_iff, Frame.sendable_iff, Frame.toWire, WireFrame.mk.injEq]
  constructor
  · rintro ⟨hlength, hcheck, hurgency, hkind, hsender, rfl, hnames, halarm, hbody⟩
    obtain ⟨rfl, hfits⟩ := (f.lead_iff lead).2 ⟨hurgency, hkind, hsender, hlength⟩
    exact ⟨⟨hnames, halarm, hbody, hfits⟩, rfl, rfl, hcheck⟩
  · rintro ⟨⟨hnames, halarm, hbody, hfits⟩, rfl, rfl, hcheck⟩
    obtain ⟨hurgency, hkind, hsender, hlength⟩ := (f.lead_iff f.lead).1 ⟨rfl, hfits⟩
    exact ⟨hlength, hcheck, hurgency, hkind, hsender, rfl, hnames, halarm, hbody⟩

end

section
/-! PROOFS. A bit error, the eighth failure, and the outcomes that carry a pending withdraw out: each outcome against the
same one with no withdraw pending (O50). -/

namespace Sys2Proof.Machine

open Sys2Proof

/-! ### No withdraw pending, another count of failures -/

/-- The same state with no withdraw pending. -/
def State.calmed (s : State) : State := s.setControl { s.control with withdrawPending := false }

/-- The same state with another count of consecutive failures. -/
def State.recounted (s : State) (k : Nat) : State := s.setArbiter { s.arbiter with failures := k }

theorem State.calmed_of_kept {s : State} (h : s.control.withdrawPending = false) : s.calmed = s := by
  unfold State.calmed
  rw [← h]
  rfl

theorem State.recounted_of_count {s : State} {k : Nat} (h : s.arbiter.failures = k) : s.recounted k = s := by
  unfold State.recounted
  rw [← h]
  rfl

theorem State.finishOwn_calmed (s : State) : s.calmed.finishOwn = s.finishOwn.calmed := by
  rw [State.finishOwn_eq, State.finishOwn_eq]
  rfl

theorem State.startPublishing_calmed (s : State) : s.calmed.startPublishing = s.startPublishing.calmed := by
  rw [State.startPublishing_eq s.calmed rfl, State.startPublishing_eq s rfl]
  rfl

/-! ### Owners -/

/-- A HELLO that completes in JOINING opens the join window (R167). -/
theorem State.completeHello_joining {s : State} (h : s.control.state = .joining) :
    s.completeHello = ((s.setWant .hello false).setControl
      { s.control with helloDone := true, joinTimer := s.control.timing.joinFull }).startPublishing := if_pos h

theorem State.completeHello_serving {s : State} (h : s.control.state ≠ .joining) :
    s.completeHello = (s.setWant .hello false).restartBeacon := if_neg h

/-- No owner looks at the withdraw when it takes COMPLETED. -/
theorem State.ownerCompleted_calmed (s : State) (w : Want) : s.calmed.ownerCompleted w = (s.ownerCompleted w).calmed := by
  have hupdate : s.calmed.completeUpdate = s.completeUpdate.calmed := by
    unfold State.completeUpdate
    rw [show s.calmed.publication.flight = s.publication.flight from rfl]
    cases s.publication.flight <;> rfl
  have hhello : s.calmed.completeHello = s.completeHello.calmed := by
    by_cases hstate : s.control.state = .joining
    · rw [State.completeHello_joining hstate, State.completeHello_joining (s := s.calmed) hstate]
      rw [← State.startPublishing_calmed]
      rfl
    · rw [State.completeHello_serving hstate, State.completeHello_serving (s := s.calmed) hstate]
      rfl
  have hask : s.calmed.completeAsk = s.completeAsk.calmed := by
    unfold State.completeAsk
    rw [show s.calmed.peers.asking = s.peers.asking from rfl]
    cases s.peers.asking with
    | none => rfl
    | some a =>
      obtain ⟨_, _, owned⟩ := a
      cases owned <;> rfl
  cases w with
  | alarm | routine => exact hupdate
  | hello => exact hhello
  | ask => exact hask
  | beacon | resend => rfl

/-- Of station control COMPLETED can change the HELLO done mark and the join timer (R167). -/
theorem State.ownerCompleted_control (s : State) (w : Want) :
    ∃ done timer, (s.ownerCompleted w).control = { s.control with helloDone := done, joinTimer := timer } := by
  cases w with
  | alarm | routine =>
    show ∃ done timer, s.completeUpdate.control = _
    unfold State.completeUpdate
    split <;> exact ⟨_, _, rfl⟩
  | hello =>
    show ∃ done timer, s.completeHello.control = _
    by_cases hstate : s.control.state = .joining
    · rw [State.completeHello_joining hstate, State.startPublishing_eq _ rfl]
      exact ⟨_, _, rfl⟩
    · rw [State.completeHello_serving hstate]
      exact ⟨_, _, rfl⟩
  | ask =>
    show ∃ done timer, s.completeAsk.control = _
    unfold State.completeAsk
    split
    · exact ⟨_, _, rfl⟩
    · dsimp only
      split <;> exact ⟨_, _, rfl⟩
  | beacon | resend => exact ⟨_, _, rfl⟩

/-- No owner looks at the withdraw or at the count of failures when it takes LOST or FAILED. -/
theorem State.ownerReturned_recounted (s : State) (w : Want) (k : Nat) :
    (s.calmed.recounted k).ownerReturned w = (s.ownerReturned w).calmed.recounted k := by
  have hupdate : (s.calmed.recounted k).returnUpdate = s.returnUpdate.calmed.recounted k := by
    unfold State.returnUpdate
    rw [show (s.calmed.recounted k).publication.flight = s.publication.flight from rfl]
    cases s.publication.flight <;> rfl
  cases w with
  | alarm | routine => exact hupdate
  | hello | ask | beacon | resend => rfl

theorem State.ownerReturned_calmed (s : State) (w : Want) : s.calmed.ownerReturned w = (s.ownerReturned w).calmed :=
  (s.ownerReturned_recounted w s.arbiter.failures).trans
    (State.recounted_of_count (s.ownerReturned_sameFlight w).failures)

theorem State.ownerReturned_txFail (s : State) (w : Want) : (s.ownerReturned w).arbiter.txFail = s.arbiter.txFail := by
  cases w with
  | alarm | routine =>
    show s.returnUpdate.arbiter.txFail = _
    unfold State.returnUpdate
    split <;> rfl
  | hello | ask | beacon | resend => rfl

/-! ### Outcomes against the same outcomes with no withdraw pending -/

/-- The report of the end of a flight, against the same report with no withdraw pending (R158, R170). -/
theorem State.endFlight_eq_calmed (s : State) :
    s.endFlight = if s.control.withdrawPending = true then s.calmed.enterListening .command else s.calmed := by
  unfold State.endFlight
  split
  · rfl
  next hkept => exact (State.calmed_of_kept (Bool.eq_false_iff.2 hkept)).symm

theorem State.endFlight_calmed (s : State) : s.calmed.endFlight = s.calmed := State.endFlight_of_kept rfl

theorem State.takeCompleted_calmed (s : State) (w : Want) :
    s.calmed.takeCompleted w = ((s.land.recounted 0).ownerCompleted w).calmed := by
  show ((s.land.recounted 0).calmed.ownerCompleted w).endFlight = _
  rw [State.ownerCompleted_calmed, State.endFlight_calmed]

theorem State.takeCompleted_eq_calmed (s : State) (w : Want) :
    s.takeCompleted w =
      if s.control.withdrawPending = true then (s.calmed.takeCompleted w).enterListening .command
      else s.calmed.takeCompleted w := by
  have hkept := (s.land.recounted 0).ownerCompleted_withdrawPending w
  rw [State.takeCompleted_calmed]
  show ((s.land.recounted 0).ownerCompleted w).endFlight = _
  rw [State.endFlight_eq_calmed, hkept]
  rfl

theorem State.takeCompleted_station (s : State) (w : Want) :
    (s.calmed.takeCompleted w).control.station = s.control.station := by
  obtain ⟨_, _, hcontrol⟩ := (s.land.recounted 0).ownerCompleted_control w
  have hstation := congrArg Control.station hcontrol
  rw [State.takeCompleted_calmed]
  exact hstation

/-- The arbiter's own part of LOST, before the owner takes it (R153, R155). -/
def State.lostReport (s : State) : State :=
  s.land.setArbiter { s.land.arbiter with arbLost := Tally.rise s.land.arbiter.arbLost }

theorem State.takeLost_calmed (s : State) (w : Want) :
    s.calmed.takeLost w = (s.lostReport.ownerReturned w).calmed := by
  show (s.lostReport.calmed.ownerReturned w).endFlight = _
  rw [State.ownerReturned_calmed, State.endFlight_calmed]

theorem State.takeLost_eq_calmed (s : State) (w : Want) :
    s.takeLost w =
      if s.control.withdrawPending = true then (s.calmed.takeLost w).enterListening .command
      else s.calmed.takeLost w := by
  have hkept := congrArg Control.withdrawPending (s.lostReport.ownerReturned_sameFlight w).control
  rw [State.takeLost_calmed]
  show (s.lostReport.ownerReturned w).endFlight = _
  rw [State.endFlight_eq_calmed, hkept]
  rfl

theorem State.takeLost_station (s : State) (w : Want) : (s.calmed.takeLost w).control.station = s.control.station := by
  have hstation := congrArg Control.station (s.lostReport.ownerReturned_sameFlight w).control
  rw [State.takeLost_calmed]
  exact hstation

/-- FAILED at the arbiter, by the count of failures before it (R156, R157). -/
theorem State.takeFailed_eq (s : State) (w : Want) :
    s.takeFailed w =
      if 7 ≤ s.arbiter.failures then (s.failedLanding.ownerReturned w).lineTrouble
      else (s.failedLanding.ownerReturned w).endFlight := by
  have hlanding : s.land.setArbiter { s.land.arbiter with
      txFail := Tally.rise s.land.arbiter.txFail, failures := s.land.arbiter.failures + 1 } = s.failedLanding := by
    rw [Tally.rise_eq]
    rfl
  have heighth : 8 ≤ (s.failedLanding.ownerReturned w).arbiter.failures ↔ 7 ≤ s.arbiter.failures := by
    rw [(s.failedLanding.ownerReturned_sameFlight w).failures]
    exact Nat.succ_le_succ_iff
  unfold State.takeFailed
  dsimp only
  rw [hlanding, if_congr heighth rfl rfl]

/-- The first FAILED of a row with no withdraw pending ends the flight and does nothing else at the arbiter. -/
theorem State.takeFailed_first (s : State) (w : Want) :
    (s.calmed.recounted 0).takeFailed w = (s.failedLanding.ownerReturned w).calmed.recounted 1 := by
  have hlanding : (s.calmed.recounted 0).failedLanding = s.failedLanding.calmed.recounted 1 := rfl
  have hfew : ¬7 ≤ (s.calmed.recounted 0).arbiter.failures := Nat.not_succ_le_zero 6
  rw [State.takeFailed_eq, if_neg hfew, hlanding, State.ownerReturned_recounted]
  exact State.endFlight_of_kept rfl

/-- The eighth FAILED, an earlier one with a withdraw pending, and one without, against the first of a row (R157,
R170). -/
theorem State.takeFailed_eq_first {s t : State} {w : Want} (ht : t = (s.calmed.recounted 0).takeFailed w) :
    s.takeFailed w =
      if 7 ≤ s.arbiter.failures then t.lineTrouble
      else if s.control.withdrawPending = true then t.enterListening .command
      else t.recounted (s.arbiter.failures + 1) := by
  obtain ⟨_, _, hcontrol, _, hfailures⟩ := s.failedLanding.ownerReturned_sameFlight w
  have hkept : (s.failedLanding.ownerReturned w).control.withdrawPending = s.control.withdrawPending :=
    congrArg Control.withdrawPending hcontrol
  have hcount : (s.failedLanding.ownerReturned w).calmed.recounted (s.arbiter.failures + 1) =
      (s.failedLanding.ownerReturned w).calmed := State.recounted_of_count hfailures
  rw [ht, State.takeFailed_first, State.takeFailed_eq, State.endFlight_eq_calmed, hkept, ← hcount]
  rfl

/-- The flight is over after FAILED, and TX_FAIL has risen (R153, R156). -/
theorem State.takeFailed_first_lands {s t : State} {w : Want} (ht : t = (s.calmed.recounted 0).takeFailed w) :
    t.arbiter.inFlight = none ∧ t.line.drive = .idle ∧ t.control.station = s.control.station ∧
      t.arbiter.txFail = (if s.arbiter.txFail = 65535 then 65535 else s.arbiter.txFail + 1) := by
  obtain ⟨_, hline, hcontrol, hinFlight, _⟩ := s.failedLanding.ownerReturned_sameFlight w
  have hstation : (s.failedLanding.ownerReturned w).control.station = s.control.station :=
    congrArg Control.station hcontrol
  rw [ht, State.takeFailed_first]
  exact ⟨hinFlight, congrArg LineInterface.drive hline, hstation, s.failedLanding.ownerReturned_txFail w⟩

/-! ### LISTENING -/

/-- The station listens: everything that the entry does, and LINE_TROUBLE where it is the cause (R157, R171). -/
def State.listening (n : Station) (cause : Cause) (t : State) : State :=
  { t with
    control := { t.control with
      state := .listening cause
      withdrawPending := false
      lineTroubleCount := 0
      joinTimer := t.control.joinTimer.hold
      helloHold := .stopped
      faults := { t.control.faults with
        lineTrouble := t.control.faults.lineTrouble || decide (cause = .lineTrouble) } }
    publication := { t.publication with
      publishTimer := t.publication.publishTimer.hold
      beaconTimer := t.publication.beaconTimer.hold }
    peers := { t.peers with
      records := t.peers.records.map (fun r => { r with recallWait := r.recallWait.hold }) }
    arbiter := { t.arbiter with failures := 0 }
    notices := t.notices.offer ⟨.state n (.listening cause), t.control.clock⟩ }

theorem State.enterListening_command {t : State} {n : Station} (hn : t.control.station = some n) :
    t.enterListening .command = State.listening n .command t := by
  unfold State.listening
  rw [State.enterListening_eq, State.ownNumber_of_station hn, decide_eq_false nofun, Bool.or_false]
  rfl

theorem State.lineTrouble_eq {t : State} {n : Station} (hn : t.control.station = some n) :
    t.lineTrouble = State.listening n .lineTrouble t := by
  have hnumber : (t.setFaults { t.control.faults with lineTrouble := true }).ownNumber = n :=
    State.ownNumber_of_station hn
  unfold State.listening State.lineTrouble
  rw [State.enterListening_eq, hnumber, decide_eq_true rfl, Bool.or_true]
  rfl

/-- The cells of a winner's frame and the entry to LISTENING touch different blocks. -/
theorem State.takeCells_enterListening (s : State) (cause : Cause) (cells : List Level) :
    (s.enterListening cause).takeCells cells = (s.takeCells cells).enterListening cause := by
  rw [State.takeCells_eq, State.takeCells_eq]
  rfl

/-! ### The line's reports -/

theorem exec_completed_report {s : State} {w : Want} (hw : s.arbiter.inFlight = some w)
    (hdrive : s.line.drive.isSending = true) : exec .completed s = .next (s.finishOwn.takeCompleted w) := by
  show execCompleted s = _
  unfold execCompleted
  rw [hw]
  exact congrArg Host.Outcome.next (if_pos hdrive)

theorem exec_lost_report {s : State} {w : Want} (hw : s.arbiter.inFlight = some w)
    (hfield : (s.line.drive.isHeard && s.line.condition == .busy && s.frame.inField) = true) :
    exec .lost s = .next ((s.takeLost w).takeCells [.low]) := by
  show execLost s = _
  unfold execLost
  rw [hw]
  exact congrArg Host.Outcome.next (if_pos hfield)

theorem exec_failed_report {s : State} {w : Want} (hw : s.arbiter.inFlight = some w)
    (hdrive : s.line.drive = .breaking) :
    exec .failed s = .next (s.takeFailed w) := by
  show execFailed s = _
  unfold execFailed
  rw [hw]
  exact congrArg Host.Outcome.next (if_pos hdrive)

theorem Drive.isSending_of {d : Drive} {frame : WireFrame} (h : d = .sending frame ∨ d = .unheard frame) :
    d.isSending = true := by rcases h with rfl | rfl <;> rfl

theorem FrameUnit.inField_of_short {u : FrameUnit} (h : ∀ a ∈ u.assembly, a.bits.length < 11) : u.inField = true := by
  unfold FrameUnit.inField
  cases hassembly : u.assembly with
  | none => rfl
  | some a => exact decide_eq_true (h a hassembly)

/-- A bit error: the mismatched cell is the frame's last, and tBRK is driven (R140). -/
theorem exec_bitError {s : State} {frame : WireFrame}
    (hdrive : s.line.drive = .sending frame ∨ s.line.drive = .unheard frame) (cells : List Level) :
    exec (.bitError cells) s =
      .next (((s.takeCells (cells.take 1)).setLine { s.line with drive := .breaking }).takeCells (cells.drop 1)) := by
  have hbreaks : exec (.bitError cells) s = .next (((s.takeCells (cells.take 1)).setLine
      { (s.takeCells (cells.take 1)).line with drive := .breaking }).takeCells (cells.drop 1)) :=
    congrArg Host.Outcome.next (if_pos (Drive.isSending_of hdrive))
  rw [hbreaks, State.takeCells_line]

theorem exec_completed_eq_calmed {s : State} {w : Want} {n : Station} (hw : s.arbiter.inFlight = some w)
    (hn : s.control.station = some n) (hdrive : s.line.drive.isSending = true) :
    ∃ t, exec .completed s.calmed = .next t ∧
      exec .completed s = .next (if s.control.withdrawPending = true then State.listening n .command t else t) := by
  refine ⟨s.finishOwn.calmed.takeCompleted w, ?_, ?_⟩
  · rw [← State.finishOwn_calmed]
    exact exec_completed_report (s := s.calmed) hw hdrive
  · have hcontrol : s.finishOwn.control = s.control := by rw [State.finishOwn_eq]
    have hstation : (s.finishOwn.calmed.takeCompleted w).control.station = some n := by
      rw [State.takeCompleted_station, hcontrol, hn]
    rw [exec_completed_report hw hdrive, State.takeCompleted_eq_calmed, hcontrol, State.enterListening_command hstation]

theorem exec_lost_eq_calmed {s : State} {w : Want} {n : Station} (hw : s.arbiter.inFlight = some w)
    (hn : s.control.station = some n)
    (hfield : (s.line.drive.isHeard && s.line.condition == .busy && s.frame.inField) = true) :
    ∃ t, exec .lost s.calmed = .next t ∧
      exec .lost s = .next (if s.control.withdrawPending = true then State.listening n .command t else t) := by
  refine ⟨(s.calmed.takeLost w).takeCells [.low], exec_lost_report (s := s.calmed) hw hfield, ?_⟩
  have hstation : ((s.calmed.takeLost w).takeCells [.low]).control.station = some n := by
    rw [State.takeCells_control, State.takeLost_station, hn]
  rw [exec_lost_report hw hfield, State.takeLost_eq_calmed, ← State.enterListening_command hstation,
    ← State.takeCells_enterListening]
  split <;> rfl

end Sys2Proof.Machine

open Sys2Proof Sys2Proof.Machine

/-- Settles O50: each outcome does what it does with no withdraw pending, and the entry to LISTENING comes after it; of
FAILED the comparison is with the first of a row. -/
theorem bitErrorFailsAndTheEighthListens : Obligations.BitErrorFailsAndTheEighthListens := by
  refine fun s => ⟨fun frame cells hdrive => exec_bitError hdrive cells,
    fun w n calm listening hw hn hcalm hlistening => ?_⟩
  obtain rfl : calm = s.calmed := hcalm
  obtain rfl : listening = State.listening n := funext fun cause => funext fun t => hlistening cause t
  refine ⟨fun frame hdrive => ⟨exec_completed_eq_calmed hw hn (Drive.isSending_of hdrive),
    fun hsending hbusy hshort => exec_lost_eq_calmed hw hn ?_⟩, fun hbreaking => ?_⟩
  · rw [hsending, hbusy, FrameUnit.inField_of_short hshort]
    rfl
  · obtain ⟨t, ht⟩ : ∃ t, t = (s.calmed.recounted 0).takeFailed w := ⟨_, rfl⟩
    obtain ⟨hlanded, hidle, hstation, htally⟩ := State.takeFailed_first_lands ht
    have hfirst : exec .failed (s.calmed.recounted 0) = .next t := by
      rw [ht]
      exact exec_failed_report (s := s.calmed.recounted 0) hw hbreaking
    refine ⟨t, hfirst, hlanded, hidle, htally, ?_⟩
    rw [hn] at hstation
    rw [exec_failed_report hw hbreaking, State.takeFailed_eq_first ht, State.lineTrouble_eq hstation,
      State.enterListening_command hstation]
    rfl

end

section
/-! PROOFS. Station control's own commands and its state at reset: SET_IDENTITY and SET_TIMING (O11), CLEAR_FAULT (O17), and
every invariant after a cold reset (O5). -/

namespace Sys2Proof.Machine

open Sys2Proof

/-! ### SET_IDENTITY -/

theorem setIdentity_inside {n : Byte} (h : 1 ≤ n.toNat ∧ n.toNat ≤ 62) (epoch : Byte) (s : State) :
    setIdentity [n, epoch] s =
      (.ok, s.setControl { s.control with station := some (n.setWidth 6), epoch := epoch }) := by
  unfold setIdentity
  simp only [stationArg_inside h]

theorem setIdentity_outside {n : Byte} (h : ¬(1 ≤ n.toNat ∧ n.toNat ≤ 62)) (epoch : Byte) (s : State) :
    setIdentity [n, epoch] s = (.refusal .badArgument, s) := by
  unfold setIdentity
  simp only [stationArg_outside h]

/-! ### The codes of SET_TIMING (R132, R165) -/

theorem rateArg_table : ∀ b : Byte, (rateArg b).map Rate.cellPeriods = [512, 256, 128, 64][b.toNat]? := by decide

theorem intervalArg_table : ∀ b : Byte, (intervalArg b).map PublishInterval.ms = [2, 5, 10, 20, 50][b.toNat]? := by
  decide

theorem multipleArg_table : ∀ b : Byte, (multipleArg b).map BeaconMultiple.times = [4, 8, 16][b.toNat]? := by decide

theorem recallWaitArg_table : ∀ b : Byte, (recallWaitArg b).map RecallWait.ms = [10, 20, 40, 80][b.toNat]? := by decide

/-- A code inside its table names a value, and that value is the table's. -/
theorem exists_of_table {α : Type} {arg : Option α} {value : α → Nat} {table : List Nat} {n : Nat}
    (h : arg.map value = table[n]?) (hn : n < table.length) : ∃ a, arg = some a ∧ value a = table.getD n 0 := by
  rw [List.getElem?_eq_getElem hn, Option.map_eq_some_iff] at h
  obtain ⟨a, ha, hvalue⟩ := h
  exact ⟨a, ha, hvalue.trans (List.getElem_eq_getD 0)⟩

/-- Only a code inside its table names a value. -/
theorem inside_of_table {α : Type} {arg : Option α} {value : α → Nat} {table : List Nat} {n : Nat} {a : α}
    (h : arg.map value = table[n]?) (ha : arg = some a) : n < table.length ∧ value a = table.getD n 0 := by
  rw [ha, Option.map_some] at h
  obtain ⟨hn, hvalue⟩ := List.getElem?_eq_some_iff.1 h.symm
  exact ⟨hn, hvalue.symm.trans (List.getElem_eq_getD 0)⟩

/-- Of the beacon periods that the codes name, only that of 50 ms times 16 is above 500 ms (R165). -/
theorem beacon_within_iff : ∀ p < 5, ∀ m < 3,
    ([2, 5, 10, 20, 50].getD p 0 * [4, 8, 16].getD m 0 ≤ 500 ↔ ¬(p = 4 ∧ m = 2)) := by decide

theorem timingArg_eq_some_iff {rate publish multiple wait : Byte} {t : Timing} :
    timingArg rate publish multiple wait = some t ↔
      rateArg rate = some t.rate ∧ intervalArg publish = some t.interval ∧ multipleArg multiple = some t.multiple ∧
        recallWaitArg wait = some t.recallWait ∧ t.beaconMs ≤ 500 := by
  constructor
  · intro h
    unfold timingArg at h
    split at h
    next r p m w hr hp hm hw =>
      dsimp only at h
      split at h
      next hbeacon =>
        obtain rfl : (⟨r, p, m, w⟩ : Timing) = t := Option.some.inj h
        exact ⟨hr, hp, hm, hw, hbeacon⟩
      next => cases h
    next => cases h
  · rintro ⟨hr, hp, hm, hw, hbeacon⟩
    unfold timingArg
    rw [hr, hp, hm, hw]
    exact if_pos hbeacon

theorem timingArg_inside {rate publish multiple wait : Byte}
    (h : rate.toNat ≤ 3 ∧ publish.toNat ≤ 4 ∧ multiple.toNat ≤ 2 ∧ wait.toNat ≤ 3 ∧
      ¬(publish.toNat = 4 ∧ multiple.toNat = 2)) :
    ∃ t : Timing, timingArg rate publish multiple wait = some t ∧
      t.rate.cellPeriods = [512, 256, 128, 64].getD rate.toNat 0 ∧
      t.interval.ms = [2, 5, 10, 20, 50].getD publish.toNat 0 ∧
      t.multiple.times = [4, 8, 16].getD multiple.toNat 0 ∧
      t.recallWait.ms = [10, 20, 40, 80].getD wait.toNat 0 := by
  obtain ⟨hrate, hpublish, hmultiple, hwait, hbeacon⟩ := h
  obtain ⟨r, hr, hperiods⟩ := exists_of_table (rateArg_table rate) (Nat.lt_succ_of_le hrate)
  obtain ⟨p, hp, hinterval⟩ := exists_of_table (intervalArg_table publish) (Nat.lt_succ_of_le hpublish)
  obtain ⟨m, hm, htimes⟩ := exists_of_table (multipleArg_table multiple) (Nat.lt_succ_of_le hmultiple)
  obtain ⟨w, hw, hrecall⟩ := exists_of_table (recallWaitArg_table wait) (Nat.lt_succ_of_le hwait)
  have hwithin : (⟨r, p, m, w⟩ : Timing).beaconMs ≤ 500 := by
    rw [Timing.beaconMs, hinterval, htimes]
    exact (beacon_within_iff _ (Nat.lt_succ_of_le hpublish) _ (Nat.lt_succ_of_le hmultiple)).2 hbeacon
  exact ⟨⟨r, p, m, w⟩, timingArg_eq_some_iff.2 ⟨hr, hp, hm, hw, hwithin⟩, hperiods, hinterval, htimes, hrecall⟩

theorem timingArg_outside {rate publish multiple wait : Byte}
    (h : ¬(rate.toNat ≤ 3 ∧ publish.toNat ≤ 4 ∧ multiple.toNat ≤ 2 ∧ wait.toNat ≤ 3 ∧
      ¬(publish.toNat = 4 ∧ multiple.toNat = 2))) : timingArg rate publish multiple wait = none := by
  refine Option.eq_none_iff_forall_ne_some.2 fun t ht => h ?_
  obtain ⟨hr, hp, hm, hw, hwithin⟩ := timingArg_eq_some_iff.1 ht
  obtain ⟨hrate, -⟩ := inside_of_table (rateArg_table rate) hr
  obtain ⟨hpublish, hinterval⟩ := inside_of_table (intervalArg_table publish) hp
  obtain ⟨hmultiple, htimes⟩ := inside_of_table (multipleArg_table multiple) hm
  obtain ⟨hwait, -⟩ := inside_of_table (recallWaitArg_table wait) hw
  rw [Timing.beaconMs, hinterval, htimes] at hwithin
  exact ⟨Nat.le_of_lt_succ hrate, Nat.le_of_lt_succ hpublish, Nat.le_of_lt_succ hmultiple, Nat.le_of_lt_succ hwait,
    (beacon_within_iff _ hpublish _ hmultiple).1 hwithin⟩

/-! ### Fault flags -/

/-- The bytes that name flags alone are those below 32 (R190). -/
theorem faultsArg_eq : ∀ b : Byte, faultsArg b = if b.toNat < 32 then some (FaultFlags.ofByte b) else none := by decide

theorem clearFault_inside {b : Byte} (h : b.toNat < 32) (s : State) :
    clearFault [b] s = (.ok, s.setFaults (s.control.faults.cleared (FaultFlags.ofByte b) s.keeping)) := by
  unfold clearFault
  simp only [faultsArg_eq, if_pos h]

theorem clearFault_outside {b : Byte} (h : ¬b.toNat < 32) (s : State) :
    clearFault [b] s = (.refusal .badArgument, s) := by
  unfold clearFault
  simp only [faultsArg_eq, if_neg h]

/-- TABLE_FULL and PEER_OVERFLOW have no keeping condition, and are cleared whenever they are named (R177). -/
theorem State.cleared_keeping (s : State) (f : FaultFlags) (b : Byte) :
    f.cleared (FaultFlags.ofByte b) s.keeping =
      ⟨f.duplicate && (!b.getLsbD 0 || s.control.state == .listening .duplicate),
       f.lineStuck && (!b.getLsbD 1 || s.line.condition == .stuck),
       f.lineTrouble && (!b.getLsbD 2 || s.control.state == .listening .lineTrouble),
       f.tableFull && !b.getLsbD 3,
       f.peerOverflow && !b.getLsbD 4⟩ := by
  simp only [FaultFlags.cleared, FaultFlags.ofByte, State.keeping, Bool.or_false]

theorem FaultFlags.any_eq_false_iff {f : FaultFlags} : f.any = false ↔ f = FaultFlags.clear := by
  obtain ⟨duplicate, lineStuck, lineTrouble, tableFull, peerOverflow⟩ := f
  simp only [FaultFlags.any, FaultFlags.clear, Bool.or_eq_false_iff, FaultFlags.mk.injEq, and_assoc]

/-- ATTN is released exactly while the Notice Queue is empty and no flag is set (R113). -/
theorem State.attention_eq_false_iff (s : State) :
    s.attention = false ↔ s.notices.queue = [] ∧ s.control.faults = FaultFlags.clear := by
  unfold State.attention
  rw [Bool.or_eq_false_iff, Bool.not_eq_false', List.isEmpty_iff, FaultFlags.any_eq_false_iff]

/-! ### Every block at reset -/

theorem State.reset_takeHeld : State.reset.TakeHeld :=
  (NoticeUnit.untaken_reset State.reset.notices.windows).takeHeld Port.wf_reset rfl

theorem State.reset_inOrder : State.reset.InOrder :=
  State.inOrder_of_held (p := Port.reset) (c := True) State.inOrder_of_coldReset

theorem State.reset_peersHeld : State.reset.peerView.Held := State.held_of_noRecords rfl rfl (.of_none rfl) rfl

theorem State.reset_mirrorsHeld : State.reset.MirrorsHeld := .of_nil (Nat.zero_le _) rfl

end Sys2Proof.Machine

open Sys2Proof Sys2Proof.Machine

/-- Settles O11: each command has a fixed number of argument bytes, and stores what its codes name where they are inside
their tables. -/
theorem identityAndTimingAreStored : Obligations.IdentityAndTimingAreStored := by
  refine ⟨fun s n epoch hs hstate => ?_, fun s rate publish multiple wait hs hstate => ?_⟩
  · have hexec : exec (.setIdentity (portBits [0x11, n, epoch])) s =
        .next (State.answer 0x11 [n, epoch] (setIdentity [n, epoch] s)) :=
      exec_fixed .setIdentity [n, epoch] hs (beq_iff_eq.2 hstate) (fun _ => rfl)
    rw [hexec]
    refine ⟨fun hin => ?_, fun hout => ?_⟩
    · rw [setIdentity_inside hin]
      rfl
    · rw [setIdentity_outside hout]
      rfl
  · have hexec : exec (.setTiming (portBits [0x12, rate, publish, multiple, wait])) s =
        .next (State.answer 0x12 [rate, publish, multiple, wait] (setTiming [rate, publish, multiple, wait] s)) :=
      exec_fixed .setTiming [rate, publish, multiple, wait] hs (beq_iff_eq.2 hstate) (fun _ => rfl)
    rw [hexec]
    unfold setTiming
    refine ⟨fun hin => ?_, fun hout => ?_⟩
    · obtain ⟨t, ht, hvalues⟩ := timingArg_inside hin
      refine ⟨t, ?_, hvalues⟩
      simp only [ht]
      rfl
    · simp only [timingArg_outside hout]
      rfl

/-- Settles O5, block by block: the invariant of each block holds of its reset values. -/
theorem resetStateIsWellFormed : Obligations.ResetStateIsWellFormed := by
  obtain ⟨hnotices, hport⟩ := (State.takeHeld_iff _).1 State.reset_takeHeld
  obtain ⟨hflight, hstation⟩ := (State.inOrder_iff _).1 State.reset_inOrder
  obtain ⟨hpublished, hwants, hremembers⟩ := (publication_law True True).reset (t := State.reset) rfl
  exact ⟨hnotices, hport, nofun, hflight, hstation, (State.publishing_held_iff _).1 hpublished,
    (State.publishing_remembers_iff _).1 (hremembers trivial), (State.publishing_wantsHeld_iff _).1 (hwants trivial),
    (State.peerView_held_iff _).1 State.reset_peersHeld, State.reset_mirrorsHeld.mirrorsWf⟩

/-- Settles O17, by whether the byte names flags alone; what releases ATTN holds of every state. -/
theorem clearFaultKeepsStandingConditions : Obligations.ClearFaultKeepsStandingConditions := by
  intro s b hs
  have hexec : exec (.clearFault (portBits [0x06, b])) s = .next (State.answer 0x06 [b] (clearFault [b] s)) :=
    exec_fixed .clearFault [b] hs rfl (fun _ => rfl)
  refine ⟨fun hin => ?_, fun t _ => t.attention_eq_false_iff, fun hout => ?_⟩
  · rw [hexec, clearFault_inside hin, State.cleared_keeping]
    rfl
  · rw [hexec, clearFault_outside hout]
    rfl

end

section
/-! PROOFS. The local port: the code byte and its table (O7), what a transaction comes to before and at the take (O8, O9), and
LDO bit by bit (O10). -/

namespace Sys2Proof.Machine

open Sys2Proof

/-! ### The table of code bytes -/

theorem PortCommand.ofCode_eq_some_iff {code : Byte} {c : PortCommand} :
    PortCommand.ofCode code = some c ↔ code = c.code := by
  constructor
  · intro h
    have hfound : (c.code == code) = true := List.find?_some (p := fun d : PortCommand => d.code == code) h
    exact (beq_iff_eq.1 hfound).symm
  · rintro rfl
    exact PortCommand.ofCode_code c

/-- The sixteen rows of the table of code bytes (R195). -/
def PortCommand.codeTable : List (Byte × PortCommand) := PortCommand.all.map (fun c => (c.code, c))

theorem PortCommand.mem_codeTable {code : Byte} {c : PortCommand} :
    (code, c) ∈ PortCommand.codeTable ↔ PortCommand.ofCode code = some c := by
  have hall : c ∈ PortCommand.all := by cases c <;> decide
  rw [PortCommand.ofCode_eq_some_iff, PortCommand.codeTable, List.mem_map]
  constructor
  · rintro ⟨d, _, hrow⟩
    obtain ⟨rfl, rfl⟩ := Prod.mk.inj hrow
    rfl
  · rintro rfl
    exact ⟨c, hall, rfl⟩

theorem PortCommand.ofCode_eq_none_iff {code : Byte} :
    PortCommand.ofCode code = none ↔ ∀ c, (code, c) ∉ PortCommand.codeTable :=
  Option.eq_none_iff_forall_ne_some.trans (forall_congr' fun _ => not_congr PortCommand.mem_codeTable.symm)

/-- The commands of each class that is not open in every station state (R184). -/
theorem PortCommand.opens_eq_false_iff (c : PortCommand) (st : StationState) :
    c.classOf.opens st = false ↔
      (c ∈ [PortCommand.setIdentity, .setTiming, .declarePoint, .setWindow, .commit] ∧ st ≠ .configuring) ∨
      (c ∈ [PortCommand.writePoint, .recallPeer, .withdraw, .rejoin, .restart] ∧ st = .configuring) := by
  have hconfiguring : c ∈ [PortCommand.setIdentity, .setTiming, .declarePoint, .setWindow, .commit] ↔
      c.classOf = .configuringOnly := by cases c <;> decide
  have hafter : c ∈ [PortCommand.writePoint, .recallPeer, .withdraw, .rejoin, .restart] ↔
      c.classOf = .afterCommit := by cases c <;> decide
  rw [hconfiguring, hafter]
  cases c.classOf <;> simp [CommandClass.opens]

/-! ### The command that bits spell -/

theorem Port.spells_iff {p : Port} {c : Option PortCommand} {ldi : List Bool} :
    p.spells c ldi = true ↔ p.phase = .code ∧ (p.bits ++ ldi).length < 8 ∨ p.picks ldi = c := by
  unfold Port.spells
  rw [Bool.or_eq_true, Bool.and_eq_true, beq_iff_eq, beq_iff_eq, decide_eq_true_iff]

/-- Once the code byte is complete its command is fixed, whatever bits follow (R195). -/
theorem Port.picks_codeByte {p : Port} (hp : p.phase = .code) (hb : p.bits = []) (code : Byte) (args : List Byte)
    (more : List Bool) : p.picks (portBits (code :: args) ++ more) = PortCommand.ofCode code := by
  simp only [Port.picks, hp, hb, portBits_cons, List.nil_append, List.append_assoc,
    List.take_left' (sentBits_length code), wordOfBits_sentBits]

theorem Port.picks_of_code {p : Port} {c : PortCommand} (hp : p.phase ≠ .code) (hc : p.code = some c.code)
    (ldi : List Bool) : p.picks ldi = some c := by
  unfold Port.picks
  split
  next h => exact absurd h hp
  · rw [hc, Option.bind_some, PortCommand.ofCode_code]

theorem State.transact_of_picks {s : State} {c : Option PortCommand} {ldi : List Bool} (h : s.port.picks ldi = c) :
    s.transact c ldi = s.clock ldi :=
  if_pos (Port.spells_iff.2 (.inr h))

/-- LCLK is ignored while LSEL is high (R180). -/
theorem State.clock_closed {s : State} (h : s.port.phase = .closed) (ldi : List Bool) : s.clock ldi = s := by
  induction ldi with
  | nil => rfl
  | cons b l ih => rw [State.clock_cons, State.clockBit, if_pos h, ih]

theorem State.transact_closed {s : State} (h : s.port.phase = .closed) (c : Option PortCommand) (ldi : List Bool) :
    s.transact c ldi = s := by
  unfold State.transact
  rw [State.clock_closed h, ite_self]

theorem exec_badCommand (ldi : List Bool) (s : State) : exec (.badCommand ldi) s = .next (s.transact none ldi) := rfl

/-! ### What a transaction comes to -/

/-- What bits of a transaction of the command `d`, none for BAD_COMMAND, may come to from before the take: nothing but
the port has moved; it is refused by its code or class; or its owner has acted, once, and given the reply. -/
inductive State.Transacted (s : State) (d : Option PortCommand) : State → Prop where
  | untaken (p : Port) (hreply : p.reply = none) : s.Transacted d (s.setPort p)
  | refused (p : Port) (n : Nat) (r : ResultCode) (hr : r ≠ .ok) (hreply : p.reply = some (Reply.refusal r)) :
      s.Transacted d { s with port := p, freeCount := n }
  | taken (c : PortCommand) (hd : d = some c) (args : List Byte) (p : Port) (n : Nat)
      (hreply : p.reply = some (s.perform args c).1) :
      s.Transacted d { (s.perform args c).2 with port := p, freeCount := n }

theorem State.transact_transacted {s : State} (hwf : s.port.wf) (hp : s.port.phase = .code ∨ s.port.phase = .arguments)
    (d : Option PortCommand) (ldi : List Bool) : s.Transacted d (s.transact d ldi) := by
  obtain ⟨hbits, _, _, hcode, harguments, _⟩ := hwf
  have hreply : s.port.reply = none := by
    rcases hp with hp | hp
    · rw [(hcode hp).1]
      rfl
    · exact (harguments hp).2.1
  unfold State.transact
  split
  next hspells =>
    rcases State.clock_cases ldi (Port.hasTaken_eq_false.2 (.inr hp)) hreply hbits with
      ⟨p, hclock, _, hnone⟩ | ⟨p, n, r, hclock, _, hrefusal, hr⟩ |
      ⟨c, args, n, p, k, hpicks, hbyte, _, _, hclock, _, hgiven, _⟩
    · rw [hclock]
      exact .untaken p hnone
    · rw [hclock]
      exact .refused p n r (by rcases hr with rfl | rfl <;> nofun) hrefusal
    · have hd : d = some c := by
        rcases Port.spells_iff.1 hspells with ⟨hphase, hshort⟩ | hpicked
        · exact absurd (hbyte hphase) (by omega)
        · exact hpicked.symm.trans hpicks
      rw [hclock]
      exact .taken c hd (args.take n) p k hgiven
  · exact .untaken s.port hreply

/-- A transaction that does not end in OK changes nothing but the port (R182 to R184). -/
theorem State.Transacted.unchanged {s t : State} {d : Option PortCommand} (h : s.Transacted d t)
    (hok : ∀ b, t.port.reply ≠ some ⟨.ok, b⟩) : { t with port := s.port, freeCount := s.freeCount } = s := by
  cases h with
  | untaken p hreply => rfl
  | refused p n r hr hreply => rfl
  | taken c hd args p n hreply =>
    have hrefused : (s.perform args c).1.result ≠ .ok := fun hresult =>
      hok (s.perform args c).1.bytes (by rw [← hresult]; exact hreply)
    rw [State.perform_refused hrefused]

/-! ### Response bytes -/

/-- The response bytes that the table of code bytes gives a command: after OK alone, and READ_POINT's as long as the value
whose size its second byte gives (R195, R197). -/
def Reply.fits (c : PortCommand) (r : Reply) : Prop :=
  (r.result ≠ .ok → r.bytes = []) ∧
  (r.result = .ok →
    match c with
    | .readStatus => r.bytes.length = 14
    | .readPoint => ∃ z : Size, r.bytes[1]? = some z.byte ∧ r.bytes.length = 5 + z.bytes
    | .takeNotice => r.bytes.length = 9
    | .readPeer => r.bytes.length = 14
    | .readTallies => r.bytes.length = 12
    | _ => r.bytes = [])

theorem Reply.refusal_fits (c : PortCommand) {r : ResultCode} (h : r ≠ .ok) : (Reply.refusal r).fits c :=
  ⟨fun _ => rfl, fun hok => absurd hok h⟩

/-- The commands whose OK has response bytes (R195). -/
def PortCommand.reads : List PortCommand := [.readStatus, .readPoint, .takeNotice, .readPeer, .readTallies]

theorem Reply.fits_of_bytes_nil {c : PortCommand} {r : Reply} (hc : c ∉ PortCommand.reads) (h : r.bytes = []) :
    r.fits c := by
  refine ⟨fun _ => h, fun _ => ?_⟩
  cases c with
  | readStatus | readPoint | takeNotice | readPeer | readTallies => exact absurd (by decide) hc
  | _ => exact h

/-- An owner that is not read from gives no response bytes. -/
theorem State.perform_bytes_nil {c : PortCommand} (hc : c ∉ PortCommand.reads) (s : State) (args : List Byte) :
    (s.perform args c).1.bytes = [] := by
  cases c with
  | readStatus | readPoint | takeNotice | readPeer | readTallies => exact absurd (by decide) hc
  | clearFault | setIdentity | setTiming | declarePoint | setWindow | commit | writePoint | recallPeer | withdraw | rejoin
  | restart =>
    simp only [State.perform, clearFault, setIdentity, setTiming, declarePoint, setWindow, commit, writePoint, recallPeer,
      withdraw, rejoin, restart]
    repeat' split
    all_goals rfl

theorem OwnEntry.bytes_fit {e : OwnEntry} (h : e.wf) (p : Publication) :
    (e.bytes p)[1]? = some e.size.byte ∧ (e.bytes p).length = 5 + e.size.bytes := by
  refine ⟨rfl, ?_⟩
  simp only [OwnEntry.bytes, word16Bytes, List.length_append, List.length_cons, List.length_nil, h.1]
  omega

theorem MirrorEntry.bytes_fit {e : MirrorEntry} (h : e.value.length = e.size.bytes) (clock : Word16) :
    (e.bytes clock)[1]? = some e.size.byte ∧ (e.bytes clock).length = 5 + e.size.bytes := by
  refine ⟨rfl, ?_⟩
  simp only [MirrorEntry.bytes, word16Bytes, List.length_append, List.length_cons, List.length_nil, h]
  omega

/-- The response bytes of READ_POINT follow the size of the entry (R21, R197). -/
theorem State.pointBytes_fit {s : State} (hown : s.points.ownWf)
    (hmirrored : ∀ e ∈ s.points.mirrored, e.value.length = e.size.bytes) {k : Key} {bytes : List Byte}
    (h : s.pointBytes k = some bytes) : ∃ z : Size, bytes[1]? = some z.byte ∧ bytes.length = 5 + z.bytes := by
  obtain ⟨_, _, _, hentries⟩ := hown
  unfold State.pointBytes at h
  split at h
  · obtain ⟨e, he, rfl⟩ := Option.map_eq_some_iff.1 h
    exact ⟨e.size, e.bytes_fit (hentries e (tableFind_mem he).1) _⟩
  · obtain ⟨e, he, rfl⟩ := Option.map_eq_some_iff.1 h
    exact ⟨e.size, e.bytes_fit (hmirrored e (tableFind_mem he).1) _⟩

theorem readPoint_fits {s : State} (hown : s.points.ownWf)
    (hmirrored : ∀ e ∈ s.points.mirrored, e.value.length = e.size.bytes) (args : List Byte) :
    (readPoint args s).1.fits .readPoint := by
  unfold readPoint
  repeat' split
  next bytes hbytes => exact ⟨fun hne => absurd rfl hne, fun _ => State.pointBytes_fit hown hmirrored hbytes⟩
  all_goals exact Reply.refusal_fits _ nofun

theorem takeNotice_fits (s : State) (args : List Byte) : (takeNotice args s).1.fits .takeNotice := by
  unfold takeNotice
  split
  · exact Reply.refusal_fits _ nofun
  next head _ _ => exact ⟨fun hne => absurd rfl hne, fun _ => head.bytes_length⟩

theorem readPeer_fits (s : State) (args : List Byte) : (readPeer args s).1.fits .readPeer := by
  unfold readPeer
  repeat' split
  next r _ => exact ⟨fun hne => absurd rfl hne, fun _ => rfl⟩
  all_goals exact Reply.refusal_fits _ nofun

/-- Every owner's reply has the response bytes of its row. -/
theorem State.perform_fits {s : State} (hown : s.points.ownWf)
    (hmirrored : ∀ e ∈ s.points.mirrored, e.value.length = e.size.bytes) (args : List Byte) (c : PortCommand) :
    (s.perform args c).1.fits c := by
  by_cases hc : c ∈ PortCommand.reads
  · cases c with
    | readStatus => exact ⟨fun hne => absurd rfl hne, fun _ => rfl⟩
    | readPoint => exact readPoint_fits hown hmirrored args
    | takeNotice => exact takeNotice_fits s args
    | readPeer => exact readPeer_fits s args
    | readTallies => exact ⟨fun hne => absurd rfl hne, fun _ => rfl⟩
    | _ => exact absurd hc (by decide)
  · exact Reply.fits_of_bytes_nil hc (State.perform_bytes_nil hc s args)

theorem State.Transacted.reply_fits {s t : State} {c : PortCommand} (h : s.Transacted (some c) t)
    (hown : s.points.ownWf) (hmirrored : ∀ e ∈ s.points.mirrored, e.value.length = e.size.bytes) {r : Reply}
    (hr : t.port.reply = some r) : r.fits c := by
  cases h with
  | untaken p hreply => cases hreply.symm.trans hr
  | refused p n code hcode hreply =>
    obtain rfl : Reply.refusal code = r := Option.some.inj (hreply.symm.trans hr)
    exact Reply.refusal_fits c hcode
  | taken d hd args p n hreply =>
    obtain rfl : c = d := Option.some.inj hd
    obtain rfl : (s.perform args c).1 = r := Option.some.inj (hreply.symm.trans hr)
    exact State.perform_fits hown hmirrored args c

/-! ### LDO -/

theorem ResultCode.byte_eq (r : ResultCode) :
    r.byte = (match r with
      | .ok => 0x00 | .empty => 0x01 | .notFound => 0x02 | .badArgument => 0x03 | .badState => 0x04
      | .badCommand => 0x05 | .badConfig => 0x06) := by
  cases r <;> rfl

/-- The byte that LDO carries in an open transaction that has a reply (R180, R182). -/
def Reply.byteAt (r : Reply) (sent : Nat) : Phase → Byte
  | .result => r.result.byte
  | .response => r.bytes.getD sent 0
  | .trailing => 0x00
  | _ => 0xA5

theorem Port.ldoByte_of_reply {p : Port} {r : Reply} (hr : p.reply = some r) (hp : p.phase ≠ .closed) :
    p.ldoByte = some (r.byteAt p.sent p.phase) := by
  unfold Port.ldoByte
  rw [hr]
  cases h : p.phase with
  | closed => exact absurd h hp
  | code | arguments | waiting | result | response | trailing => rfl

theorem Port.responseLength_of_reply {p : Port} {r : Reply} (hr : p.reply = some r) :
    p.responseLength = r.bytes.length := by
  rw [Port.responseLength, hr]
  rfl

theorem Port.atRemoval_iff {p : Port} :
    p.atRemoval = true ↔
      p.phase = .response ∧ p.code = some PortCommand.takeNotice.code ∧ p.bits.length = 7 ∧
        p.responseLength ≤ p.sent + 1 := by
  unfold Port.atRemoval
  simp only [Bool.and_eq_true, beq_iff_eq, decide_eq_true_iff, and_assoc]

/-- Whether the next bit, with a reply fixed, reads no free value: it does not begin a byte in WAITING. -/
def Port.Returning (p : Port) : Prop :=
  (p.phase = .waiting ∧ 0 < p.bits.length) ∨ p.phase = .result ∨ p.phase = .response ∨ p.phase = .trailing

theorem Port.Returning.not_closed {p : Port} (h : p.Returning) : p.phase ≠ .closed := by
  rcases h with ⟨h, _⟩ | h | h | h <;> rw [h] <;> nofun

theorem Port.Returning.not_begin {p : Port} (h : p.Returning) : ¬(p.phase = .waiting ∧ p.bits = []) := by
  rintro ⟨hp, hb⟩
  rcases h with ⟨_, h⟩ | h | h | h
  · rw [hb] at h
    exact absurd h (Nat.lt_irrefl 0)
  all_goals cases hp.symm.trans h

/-- The port after one bit of a reply: LDO driven, the bit sampled, and a whole byte moves the port on (R180). -/
def Port.clocked (p : Port) (bit : Bool) : Port :=
  if p.bits.length < 7 then { p.drive with bits := p.bits ++ [bit] } else { p.drive with bits := [] }.advance

theorem Port.clocked_eq {p : Port} {r : Reply} (hr : p.reply = some r) (hp : p.phase ≠ .closed)
    (hl : p.bits.length ≤ 7) (bit : Bool) :
    p.clocked bit =
      { p with
        ldo := some ((r.byteAt p.sent p.phase).getLsbD (7 - p.bits.length))
        bits := if p.bits.length < 7 then p.bits ++ [bit] else []
        phase :=
          if p.bits.length < 7 then p.phase
          else match p.phase with
            | .result => if r.bytes = [] then .trailing else .response
            | .response => if p.sent + 1 < r.bytes.length then .response else .trailing
            | phase => phase
        sent :=
          if p.bits.length = 7 ∧ p.phase = .response then
            (if p.sent + 1 < r.bytes.length then p.sent + 1 else r.bytes.length)
          else p.sent } := by
  have hdrive : p.drive = { p with ldo := some ((r.byteAt p.sent p.phase).getLsbD (7 - p.bits.length)) } := by
    rw [Port.drive, Port.ldoByte_of_reply hr hp]
    rfl
  unfold Port.clocked
  rw [hdrive]
  by_cases hpart : p.bits.length < 7
  · have hne : p.bits.length ≠ 7 := by omega
    simp only [if_pos hpart, hne, false_and, if_false]
  · have hseven : p.bits.length = 7 := by omega
    have hlength := Port.responseLength_of_reply hr
    unfold Port.responseLength at hlength
    simp only [hseven, true_and]
    unfold Port.advance Port.responseLength
    cases h : p.phase with
    | closed => exact absurd h hp
    | code | arguments | waiting | trailing => rfl
    | result => by_cases hnil : r.bytes = [] <;> simp [hlength, hnil]
    | response => by_cases hmore : p.sent + 1 < r.bytes.length <;> simp [hlength, hmore]

/-- A bit of a reply, but for the last of an accepted TAKE_NOTICE's response. -/
theorem State.clockBit_returning {s : State} (hp : s.port.Returning) (hr : s.port.atRemoval = false)
    (bit : Bool) : s.clockBit bit = s.setPort (s.port.clocked bit) := by
  unfold State.clockBit
  rw [if_neg hp.not_closed, if_neg (by rw [hr]; nofun), State.lclkFall_eq hp.not_begin]
  unfold State.lclkRise Port.clocked
  rw [State.setPort_port, show s.port.drive.bits = s.port.bits from rfl]
  split
  · rfl
  · unfold State.takeByte
    rcases hp with ⟨h, _⟩ | h | h | h <;> simp only [Port.drive, State.setPort_port, h, State.setPort_setPort] <;> rfl

/-- The last bit of an accepted TAKE_NOTICE's response is driven, and its rising edge left to NOTICE_REMOVAL (R109). -/
theorem State.clockBit_atRemoval {s : State} (hr : s.port.atRemoval = true) (bit : Bool) :
    s.clockBit bit = s.setPort s.port.drive := by
  obtain ⟨hp, _⟩ := Port.atRemoval_iff.1 hr
  unfold State.clockBit
  rw [if_neg (by rw [hp]; nofun), if_pos hr, State.lclkFall_eq (by rw [hp]; nofun)]

/-- The first bit of a byte that begins in WAITING: filler, or the result byte if the owner has returned (R182). -/
theorem State.clockBit_begin {s : State} (hp : s.port.phase = .waiting) (hb : s.port.bits = []) (bit : Bool) :
    ∃ p, (p = s.port ∨ p = { s.port with phase := .result }) ∧
      s.clockBit bit = { s with port := p.clocked bit, freeCount := s.freeCount + 1 } := by
  have hbegin : ∀ p : Port, p.bits = [] →
      ((s.setPort p.drive).bumpFree).lclkRise bit = { s with port := p.clocked bit, freeCount := s.freeCount + 1 } := by
    intro p hnil
    have hshort : p.bits.length < 7 := by rw [hnil]; decide
    rw [State.lclkRise, if_pos (by exact hshort), Port.clocked, if_pos hshort]
    rfl
  have hfall : s.clockBit bit = s.lclkFall.lclkRise bit := by
    unfold State.clockBit
    rw [if_neg (by rw [hp]; nofun), if_neg fun hr => by cases hp.symm.trans (Port.atRemoval_iff.1 hr).1]
  rw [hfall, State.lclkFall, if_pos ⟨hp, hb⟩]
  dsimp only
  split
  · exact ⟨_, .inr rfl, hbegin _ hb⟩
  · exact ⟨_, .inl rfl, hbegin _ hb⟩

/-- The filler 0xA5 is on LDO while the code byte and the argument bytes are clocked (R180). -/
theorem State.clock_filler {s : State} (hp : s.port.phase = .code ∨ s.port.phase = .arguments)
    (hl : s.port.bits.length < 7) (bit : Bool) :
    s.clock [bit] = s.setPort { s.port with
      bits := s.port.bits ++ [bit], ldo := some ((0xA5 : Byte).getLsbD (7 - s.port.bits.length)) } := by
  have hbyte : s.port.ldoByte = some 0xA5 := by
    unfold Port.ldoByte
    rcases hp with h | h <;> rw [h]
  have hopen : s.port.phase ≠ .closed := by rcases hp with h | h <;> rw [h] <;> nofun
  have hbegin : ¬(s.port.phase = .waiting ∧ s.port.bits = []) := by
    rintro ⟨hw, _⟩
    rcases hp with h | h <;> cases hw.symm.trans h
  rw [State.clock_part [bit] hopen hbegin (by rw [List.length_singleton]; omega) (List.cons_ne_nil _ _), hbyte,
    List.length_singleton, show 8 - (s.port.bits.length + 1) = 7 - s.port.bits.length by omega]
  rfl

end Sys2Proof.Machine

open Sys2Proof Sys2Proof.Machine

/-- Settles O7, by the row of the table that holds the code byte, and whether its class is open. -/
theorem codeBytePicksItsCommand : Obligations.CodeBytePicksItsCommand := by
  intro table needed code s htable hneeded hs
  obtain rfl : table = PortCommand.codeTable := htable
  have hphase : s.port.phase = .code := by rw [hs]; rfl
  have hbits : s.port.bits = [] := by rw [hs]; rfl
  have hother : ∀ c, PortCommand.ofCode code ≠ c → s.transact c (portBits [code]) = s := fun _ hc =>
    State.transact_other hphase hbits hc
  refine ⟨fun c hrow outside houtside => ?_, fun hnone => ?_⟩
  · have hofCode : PortCommand.ofCode code = some c := PortCommand.mem_codeTable.1 hrow
    obtain rfl : code = c.code := PortCommand.ofCode_eq_some_iff.1 hofCode
    have hcount : argCount s.points c [] = needed c := by
      rw [hneeded]
      cases c <;> rfl
    rw [← PortCommand.opens_eq_false_iff] at houtside
    subst houtside
    have hcollect : ¬c.classOf.opens s.control.state = false →
        exec (c.toInstr (portBits [c.code])) s = .next (s.collect c []) := fun hopen => by
      rw [exec_toInstr, State.transact_command [] hphase hbits (Bool.eq_true_of_not_eq_false hopen)
        (fun _ hk => absurd hk (Nat.not_lt_zero _))]
    refine ⟨fun hclosed => ?_, fun hopen hsome => ?_, fun hopen hzero => ?_, ?_, fun d hd => ?_⟩
    · rw [exec_toInstr, State.transact_badState hphase hbits hclosed]
      rfl
    · have hmissing : ArgsMissing s.points c [] := fun n hn =>
        Nat.pos_of_ne_zero fun h => hsome (by rw [← hcount, hn, h])
      rw [hcollect hopen, State.collect_missing hmissing, hcount]
      rfl
    · refine ⟨_, hcollect hopen, ?_⟩
      rw [State.collect_complete (hcount.trans hzero) (Nat.le_refl 0)]
      exact ⟨rfl, rfl, Option.some_ne_none _⟩
    · rw [exec_badCommand, hother none (by rw [hofCode]; nofun)]
    · rw [exec_toInstr, hother (some d) (by rw [hofCode]; exact fun h => hd (Option.some.inj h).symm)]
  · have hofCode : PortCommand.ofCode code = none := PortCommand.ofCode_eq_none_iff.2 hnone
    refine ⟨?_, fun c => ?_⟩
    · rw [exec_badCommand, State.transact_badCommand hphase hbits hofCode]
      rfl
    · rw [exec_toInstr, hother (some c) (by rw [hofCode]; nofun)]

/-- Settles O8, by what a transaction may come to and what each owner replies. -/
theorem refusalsChangeNothingAndResponsesFit : Obligations.RefusalsChangeNothingAndResponsesFit := by
  intro c ldi s t hport hphase
  have htransacted : ∀ d, s.Transacted d (s.transact d ldi) := fun d =>
    State.transact_transacted hport.1 hphase d ldi
  refine ⟨fun i hi hexec hok => ?_, fun hown hmirrored hexec r hr => ?_⟩
  · have hmeaning : ∃ d, exec i s = .next (s.transact d ldi) := by
      rcases hi with rfl | rfl
      · exact ⟨_, exec_toInstr c ldi s⟩
      · exact ⟨_, exec_badCommand ldi s⟩
    obtain ⟨d, hd⟩ := hmeaning
    cases hd.symm.trans hexec
    exact (htransacted d).unchanged hok
  · cases (exec_toInstr c ldi s).symm.trans hexec
    exact (htransacted (some c)).reply_fits hown hmirrored hr

/-- Settles O9: the bytes leave the command collecting, in the phase from which further bits are clocked on. -/
theorem incompleteCommandIsAbandoned : Obligations.IncompleteCommandIsAbandoned := by
  intro c args s p hs hopen hmissing hp
  have hphase : s.port.phase = .code := by rw [hs]; rfl
  have hbits : s.port.bits = [] := by rw [hs]; rfl
  have hport : Port.collecting c.code args (argCount s.points c args) = p := hp.symm
  have hargs : ∀ k ≤ args.length, ArgsMissing s.points c (args.take k) := fun k hk n hn => by
    rw [List.length_take_of_le hk]
    exact hmissing k hk n hn
  have hcollecting : s.transact (some c) (portBits (c.code :: args)) = s.setPort p := by
    have hall : ArgsMissing s.points c args := List.take_length (l := args) ▸ hargs args.length (Nat.le_refl _)
    rw [State.transact_command args hphase hbits hopen fun k hk => hargs k hk.le, State.collect_missing hall, hport]
  have hpicks : ∀ more, s.port.picks (portBits (c.code :: args) ++ more) = some c := fun more => by
    rw [Port.picks_codeByte hphase hbits, PortCommand.ofCode_code]
  refine ⟨?_, fun more => ?_, rfl⟩
  · rw [exec_toInstr, hcollecting]
    rfl
  · have hclock : s.clock (portBits (c.code :: args)) = s.setPort p := by
      rw [← hcollecting, State.transact_of_picks]
      simpa using hpicks []
    have hon : (s.setPort p).port.picks more = some c := by
      rw [State.setPort_port, ← hport]
      exact Port.picks_of_code (show Phase.arguments ≠ .code from nofun) rfl more
    rw [exec_toInstr, exec_toInstr, State.transact_of_picks (hpicks more), State.clock_append, hclock]
    exact congrArg Host.Outcome.next (State.transact_of_picks hon)

/-- Settles O10: filler, then the reply, each bit by the phase in which it is clocked. -/
theorem ldoCarriesTheReplyBitByBit : Obligations.LdoCarriesTheReplyBitByBit := by
  refine ⟨fun b => List.append_nil (sentBits b), fun s c ldi hopen hcode hc => ?_, fun s c ldi hclosed => ?_,
    State.clock_append, fun s bit hphase hl => State.clock_filler hphase hl bit, fun _ _ _ => rfl, ?_⟩
  · rw [exec_toInstr, State.transact_of_picks (Port.picks_of_code hcode hc ldi)]
  · rw [exec_toInstr, exec_badCommand, State.transact_closed hclosed, State.transact_closed hclosed]
    exact ⟨rfl, rfl⟩
  intro s r bit k carried after hr hk hcarried hafter
  subst hk
  obtain rfl : carried = r.byteAt s.port.sent := by
    funext phase
    rw [hcarried]
    cases phase with
    | result => exact (ResultCode.byte_eq r.result).symm
    | closed | code | arguments | waiting | response | trailing => rfl
  have hclocked : ∀ p : Port, p.reply = some r → p.sent = s.port.sent → p.bits = s.port.bits → p.phase ≠ .closed →
      s.port.bits.length ≤ 7 → p.clocked bit = after p := by
    intro p hreply hsent hbits hopen hl
    have hstated := hafter p
    rw [← hsent, ← hbits] at hstated
    exact (Port.clocked_eq hreply hopen (hbits ▸ hl) bit).trans hstated.symm
  refine ⟨fun hwaiting hzero => ?_, fun hreturning hl last hlast => ?_⟩
  · have hnil : s.port.bits = [] := List.eq_nil_of_length_eq_zero hzero
    obtain ⟨p, hp, hclock⟩ := State.clockBit_begin hwaiting hnil bit
    refine ⟨p, hp, hclock.trans ?_⟩
    rw [hclocked p (by rcases hp with rfl | rfl <;> exact hr) (by rcases hp with rfl | rfl <;> rfl)
      (by rcases hp with rfl | rfl <;> rfl) (by rcases hp with rfl | rfl <;> simp [hwaiting]) (by omega)]
  · have hp : s.port.Returning := hreturning
    have hremoval : s.port.atRemoval = true ↔ last := by
      rw [Port.atRemoval_iff, Port.responseLength_of_reply hr, hlast]
      rfl
    refine ⟨fun hnot => ?_, fun his => ?_⟩
    · rw [← hclocked s.port hr rfl rfl hp.not_closed hl]
      exact State.clockBit_returning hp (Bool.eq_false_iff.2 fun h => hnot (hremoval.1 h)) bit
    · obtain ⟨hresponse, _, hseven, _⟩ := hlast.mp his
      refine (State.clockBit_atRemoval (hremoval.2 his) bit).trans ?_
      have hbyte : s.port.ldoByte = some (r.byteAt s.port.sent .response) := by
        rw [Port.ldoByte_of_reply hr hp.not_closed, hresponse]
      rw [Port.drive, hbyte, hseven]
      rfl

end

section
/-! PROOFS. The check value: one bit of the computation, the bits it covers, and the receiver's comparison (O27). -/

namespace Sys2Proof.Machine

open Sys2Proof

/-- One bit of R194's computation, as the rule says it: the exclusive OR is made only if the compared bits differed. -/
theorem checkBit_eq (register : Word16) (bit : Bool) :
    checkBit register bit =
      if bit = register.getLsbD 15 then register <<< 1 else (register <<< 1) ^^^ 0x2F15 := by
  unfold checkBit
  by_cases hsame : bit = register.getLsbD 15
  · rw [if_pos hsame, if_neg (by simp [hsame])]
  · rw [if_neg hsame, if_pos (bne_iff_ne.2 hsame)]

theorem coveredBits_length (lead : Word16) (body : List Byte) :
    (coveredBits lead body).length = 16 + 8 * body.length := by
  rw [coveredBits, List.length_append, sentBits_length, flatMap_sentBits_length]

theorem checkPasses_iff (w : WireFrame) : checkPasses w = true ↔ w.check = checkValue w.lead w.body := beq_iff_eq

end Sys2Proof.Machine

open Sys2Proof Sys2Proof.Machine

/-- Settles O27: the bits covered are the bits of lead and body as they are sent, and the register takes each by
`checkBit_eq`. The bits on the line, and the value a sender puts into its frame, are so by definition. -/
theorem checkValueTakesEachBit : Obligations.CheckValueTakesEachBit := by
  refine ⟨fun lead body => ?_, coveredBits_length, fun _ => rfl, fun _ => rfl, checkPasses_iff⟩
  have hstep : checkBit = fun (r : Word16) bit =>
      if bit = r.getLsbD 15 then r <<< 1 else (r <<< 1) ^^^ 0x2F15 := by
    funext register bit
    exact checkBit_eq register bit
  rw [checkValue, hstep]
  rfl

end

section
/-! PROOFS. The queue of commands: a step hands the front command the queue's rest, and every operation of every block
leaves the queue as it finds it (O1, O3). -/

namespace Sys2Proof.Machine

open Sys2Proof

/-! ### Station control and the timers of the publication unit -/

@[simp] theorem State.enter_pending (s : State) (st : StationState) : (s.enter st).pending = s.pending := rfl

@[simp] theorem State.enterListening_pending (s : State) (cause : Cause) :
    (s.enterListening cause).pending = s.pending := rfl

@[simp] theorem State.publishExpiry_pending (s : State) : s.publishExpiry.pending = s.pending := by
  unfold State.publishExpiry
  split <;> rfl

@[simp] theorem State.startPublishing_pending (s : State) : s.startPublishing.pending = s.pending :=
  State.publishExpiry_pending _

@[simp] theorem State.joinRecall_pending (s : State) : s.joinRecall.pending = s.pending := by
  obtain ⟨u, hside, hu⟩ := PeerSide.joinRecall s
  rw [hu, State.bumpFree_pending, hside.pending]

@[simp] theorem State.withdrawNow_pending (s : State) : s.withdrawNow.pending = s.pending := by
  unfold State.withdrawNow
  split <;> rfl

/-! ### The owners of the local port's commands -/

@[simp] theorem State.writeOwn_pending (s : State) (i : Index) (value : List Byte) :
    (s.writeOwn i value).pending = s.pending := by
  unfold State.writeOwn
  dsimp only
  split <;> rfl

@[simp] theorem State.perform_pending (s : State) (args : List Byte) (c : PortCommand) :
    (s.perform args c).2.pending = s.pending := by
  cases c with
  | readStatus | readTallies | restart => rfl
  | readPoint | takeNotice | readPeer | clearFault | setIdentity | setTiming | declarePoint | setWindow | commit
  | rejoin =>
    simp only [State.perform, readPoint, takeNotice, readPeer, clearFault, setIdentity, setTiming, declarePoint,
      setWindow, Machine.commit, Machine.rejoin]
    repeat' split
    all_goals rfl
  | writePoint =>
    show (writePoint args s).2.pending = _
    unfold writePoint
    split
    · split
      · exact s.writeOwn_pending _ _
      · rfl
    · rfl
  | recallPeer =>
    show (recallPeer args s).2.pending = _
    unfold recallPeer
    repeat' split
    case isFalse => exact (PeerSide.forceRecall s _).pending
    all_goals rfl
  | withdraw =>
    show (withdraw args s).2.pending = _
    unfold withdraw
    split
    · exact s.withdrawNow_pending
    · exact s.withdrawNow_pending
    · rfl
    · rfl

/-- The bits of a transaction, by what bits may come to. -/
@[simp] theorem State.transact_pending (s : State) (c : Option PortCommand) (ldi : List Bool) :
    (s.transact c ldi).pending = s.pending := by
  generalize hu : s.transact c ldi = u
  have hclocked : s.Clocked u := hu ▸ State.transact_clocked s c ldi
  cases hclocked with
  | moved => rfl
  | taken d args => exact s.perform_pending args d

/-! ### Reception -/

@[simp] theorem State.duplicateDetected_pending (s : State) : s.duplicateDetected.pending = s.pending := by
  unfold State.duplicateDetected
  dsimp only
  split <;> rfl

@[simp] theorem State.troubleExit_pending (s : State) : s.troubleExit.pending = s.pending := by
  unfold State.troubleExit
  dsimp only
  rw [State.enter_pending, State.raiseBeacon_pending]
  split
  · rw [State.joinRecall_pending]
    split
    · rfl
    · exact State.startPublishing_pending _
  · split
    · rfl
    · exact State.startPublishing_pending _

@[simp] theorem State.goodFrameReport_pending (s : State) : s.goodFrameReport.pending = s.pending := by
  unfold State.goodFrameReport
  split
  · split
    · rfl
    · exact s.troubleExit_pending
  · rfl

@[simp] theorem State.controlEvent_pending (s : State) (f : Frame) : (s.controlEvent f).pending = s.pending := by
  have hhello : s.takeHello.pending = s.pending := by
    unfold State.takeHello
    split <;> rfl
  unfold State.controlEvent
  rw [State.goodFrameReport_pending]
  split
  · exact hhello
  · rfl

@[simp] theorem State.publicationEvent_pending (s : State) (f : Frame) :
    (s.publicationEvent f).pending = s.pending := by
  have hrequest : ∀ wanted believed asked, (s.takeRequest wanted believed asked).pending = s.pending := by
    intro wanted believed asked
    unfold State.takeRequest
    dsimp only
    split <;> rfl
  unfold State.publicationEvent
  split
  · split
    · exact hrequest _ _ _
    · rfl
  all_goals rfl

@[simp] theorem State.peerEvent_pending (s : State) (f : Frame) : (s.peerEvent f).pending = s.pending :=
  (PeerSide.peerEvent s f).pending

/-- The dispatch of a good frame, in either order of the blocks (R126, R127). -/
@[simp] theorem State.dispatchGood_pending (s : State) (f : Frame) : (s.dispatchGood f).pending = s.pending := by
  unfold State.dispatchGood
  dsimp only
  rw [State.publicationEvent_pending]
  split
  · split
    · rw [State.peerEvent_pending, State.controlEvent_pending, State.bumpFree_pending]
    · rw [State.controlEvent_pending, State.peerEvent_pending, State.bumpFree_pending]
  · rw [State.controlEvent_pending, State.peerEvent_pending]

@[simp] theorem State.judgeFrame_pending (s : State) (w : WireFrame) : (s.judgeFrame w).pending = s.pending := by
  unfold State.judgeFrame
  split
  · split
    · dsimp only
      split
      · exact State.duplicateDetected_pending _
      · exact State.dispatchGood_pending _ _
    · rfl
  · rfl

/-! ### The line -/

@[simp] theorem State.cutAssembly_pending (s : State) : s.cutAssembly.pending = s.pending := by
  unfold State.cutAssembly
  split <;> rfl

@[simp] theorem State.freeLine_pending (s : State) : s.freeLine.pending = s.pending := s.cutAssembly_pending

@[simp] theorem State.finishOwn_pending (s : State) : s.finishOwn.pending = s.pending := by
  rw [State.finishOwn_eq]

/-! ### Transmission -/

theorem State.startUpdate_pending {s t : State} {alarm : Bool} {items : List Item} {f : Frame}
    (h : s.startUpdate alarm items = some (f, t)) : t.pending = s.pending := by
  by_cases hitems : items = []
  · rw [State.startUpdate_none.2 hitems] at h
    cases h
  · rw [State.startUpdate_some hitems] at h
    cases h
    rfl

theorem State.startResend_pending {s t : State} {f : Frame} (h : s.startResend = some (f, t)) :
    t.pending = s.pending := by
  by_cases hitems : s.resendItems = []
  · rw [State.startResend_none.2 hitems] at h
    cases h
  · rw [State.startResend_some hitems] at h
    cases h
    rfl

theorem State.startAsk_pending {s t : State} {f : Frame} (h : s.startAsk = some (f, t)) : t.pending = s.pending := by
  unfold State.startAsk at h
  split at h
  · cases h
  · cases h
    rfl

/-- A frame whose contents the owner of a want supplies. -/
theorem State.contents_pending {s t : State} {w : Want} {f : Frame} (h : s.contents w = some (f, t)) :
    t.pending = s.pending := by
  cases w with
  | alarm | routine => exact State.startUpdate_pending h
  | hello | beacon =>
    cases h
    rfl
  | ask => exact State.startAsk_pending h
  | resend => exact State.startResend_pending h

@[simp] theorem State.startFirst_pending (s : State) (wants : List Want) :
    (s.startFirst wants).pending = s.pending := by
  induction wants generalizing s with
  | nil => rfl
  | cons w rest ih =>
    unfold State.startFirst
    split
    · split
      next hc => exact (State.contents_pending hc :)
      next => exact ih (s.setWant w false)
    · exact ih s

@[simp] theorem State.start_pending (s : State) : s.start.pending = s.pending := by
  unfold State.start
  split
  · exact s.startFirst_pending _
  · rfl

/-! ### Outcomes -/

@[simp] theorem State.completeUpdate_pending (s : State) : s.completeUpdate.pending = s.pending := by
  unfold State.completeUpdate
  split <;> rfl

@[simp] theorem State.completeHello_pending (s : State) : s.completeHello.pending = s.pending := by
  unfold State.completeHello
  dsimp only
  split
  · exact State.startPublishing_pending _
  · rfl

@[simp] theorem State.completeAsk_pending (s : State) : s.completeAsk.pending = s.pending := by
  unfold State.completeAsk
  split
  · rfl
  · dsimp only
    split <;> rfl

@[simp] theorem State.ownerCompleted_pending (s : State) (w : Want) : (s.ownerCompleted w).pending = s.pending := by
  cases w with
  | alarm | routine => exact s.completeUpdate_pending
  | hello => exact s.completeHello_pending
  | ask => exact s.completeAsk_pending
  | beacon | resend => rfl

@[simp] theorem State.returnUpdate_pending (s : State) : s.returnUpdate.pending = s.pending := by
  unfold State.returnUpdate
  split <;> rfl

@[simp] theorem State.ownerReturned_pending (s : State) (w : Want) : (s.ownerReturned w).pending = s.pending := by
  cases w with
  | alarm | routine => exact s.returnUpdate_pending
  | hello | ask | beacon | resend => rfl

@[simp] theorem State.endFlight_pending (s : State) : s.endFlight.pending = s.pending := by
  unfold State.endFlight
  split <;> rfl

@[simp] theorem State.takeCompleted_pending (s : State) (w : Want) : (s.takeCompleted w).pending = s.pending := by
  unfold State.takeCompleted
  dsimp only
  rw [State.endFlight_pending, State.ownerCompleted_pending]
  rfl

@[simp] theorem State.takeLost_pending (s : State) (w : Want) : (s.takeLost w).pending = s.pending := by
  unfold State.takeLost
  dsimp only
  rw [State.endFlight_pending, State.ownerReturned_pending]
  rfl

@[simp] theorem State.takeFailed_pending (s : State) (w : Want) : (s.takeFailed w).pending = s.pending := by
  have hreturned : ∀ x : Arbiter, ((s.land.setArbiter x).ownerReturned w).pending = s.pending := fun x =>
    State.ownerReturned_pending (s.land.setArbiter x) w
  unfold State.takeFailed
  dsimp only
  split
  · exact hreturned _
  · rw [State.endFlight_pending, hreturned]

/-! ### Every command -/

theorem exec_pending (c : Instr) (s : State) : ∃ t, exec c s = .next t ∧ t.pending = s.pending := by
  cases c with
  | badCommand ldi | setIdentity ldi | setTiming ldi | declarePoint ldi | setWindow ldi | commit ldi | readStatus ldi
  | readPoint ldi | takeNotice ldi | readPeer ldi | readTallies ldi | clearFault ldi | writePoint ldi | recallPeer ldi
  | withdraw ldi | rejoin ldi | restart ldi => exact ⟨_, rfl, s.transact_pending _ ldi⟩
  | coldReset | transactionClose | millisecondClockAdvance => exact ⟨_, rfl, rfl⟩
  | transactionOpen | noticeRemoval | breakEnd | stuck | earlyEdge | beaconTimerExpiry | helloHoldExpiry =>
    refine ⟨_, rfl, ?_⟩
    split <;> rfl
  | lineBusy cells =>
    refine ⟨_, rfl, ?_⟩
    split
    · dsimp only
      split
      · rfl
      · exact State.takeCells_pending _ cells
    · rfl
  | lineIdle cells =>
    refine ⟨_, rfl, ?_⟩
    split
    · rw [State.freeLine_pending, State.takeCells_pending]
    · rfl
  | lineBreak cells =>
    refine ⟨_, rfl, ?_⟩
    split
    · rw [State.setCondition_pending, State.cutAssembly_pending, State.takeCells_pending]
    · rfl
  | stuckEnd =>
    refine ⟨_, rfl, ?_⟩
    split
    · exact s.freeLine_pending
    · rfl
  | frameEnd cells =>
    refine ⟨_, rfl, ?_⟩
    split
    · rfl
    · dsimp only
      split
      · split
        · rfl
        · exact s.finishAssembly.judgeFrame_pending _
      · rfl
  | transmitStart => exact ⟨_, rfl, s.start_pending⟩
  | completed =>
    refine ⟨_, rfl, ?_⟩
    split
    · split
      · rw [State.takeCompleted_pending, State.finishOwn_pending]
      · rfl
    · rfl
  | lost =>
    refine ⟨_, rfl, ?_⟩
    split
    · split
      · rw [State.takeCells_pending, State.takeLost_pending]
      · rfl
    · rfl
  | bitError cells =>
    refine ⟨_, rfl, ?_⟩
    split
    · dsimp only
      rw [State.takeCells_pending, State.setLine_pending, State.takeCells_pending]
    · rfl
  | failed =>
    refine ⟨_, rfl, ?_⟩
    split
    · split
      · exact s.takeFailed_pending _
      · rfl
    · rfl
  | publishTimerExpiry =>
    refine ⟨_, rfl, ?_⟩
    split
    · exact State.publishExpiry_pending _
    · rfl
  | silenceTimerExpiry peer =>
    refine ⟨_, rfl, ?_⟩
    split
    next r _ =>
      split
      · exact (PeerSide.silenceExpires s r).pending
      · rfl
    · rfl
  | recallWaitExpiry peer =>
    refine ⟨_, rfl, ?_⟩
    split
    next r _ =>
      split
      · exact (PeerSide.recallWaitExpires s r).pending
      · rfl
    · rfl
  | joinExpiry =>
    refine ⟨_, rfl, ?_⟩
    split
    · exact s.joinRecall_pending
    · rfl

theorem step_of_pending {s : State} {c : Instr} {rest : List Instr} (h : s.pending = c :: rest) :
    step s = exec c { s with pending := rest } := by
  unfold step
  rw [h]

end Sys2Proof.Machine

open Sys2Proof Sys2Proof.Machine

/-- Settles O1: a queue with a front command takes the second branch of the step. -/
theorem stepRunsTheFrontCommand : Obligations.StepRunsTheFrontCommand := fun _ _ _ => step_of_pending

/-- Settles O3: each command's meaning answers a next state, and each operation that it calls keeps the queue. -/
theorem everyCommandAnswersANextState : Obligations.EveryCommandAnswersANextState := exec_pending

end
